-- ==== Sys2Proof/Word.lean ====
section
/-! DEFINITION. The one word type of the hardware: the byte (spec/00_scope.md R8). Cursors, counts and indexes are
`Nat`, wheel deltas are `Int` (R12): no other value is a bit vector. -/

namespace Sys2Proof

/-- A byte, bits 7 to 0, unsigned unless a rule says otherwise (R8). -/
abbrev Byte := BitVec 8

end Sys2Proof
end

