-- ==== Sys2Proof/Config.lean ====
section
/-! DEFINITION. The implementation parameters of spec/00_scope.md R7. A machine's state carries one `Config`, which no
operation writes, so that a statement over every state is one over every setting (notes/assumptions/1.md). -/

namespace Sys2Proof

/-- The seven parameters of R7, each under the rule's own name. -/
structure Config where
  /-- `BUF_CAP`, capacity of the frame buffer in bytes; OPEN (D3). -/
  bufCap : Nat
  /-- `MAX_BUTTONS`, the most buttons that can be registered; OPEN (D19). -/
  maxButtons : Nat
  /-- `MAX_WHEELS`, the most wheels that can be registered; OPEN (D19). -/
  maxWheels : Nat
  /-- `WHEEL_W`, width in bits of the wheel delta registers (D13). -/
  wheelW : Nat
  /-- `WHEEL_ACCUMULATE`: a turn adds to `pending` instead of replacing it (D11, conflict C1). -/
  wheelAccumulate : Bool
  /-- `WHEEL_ARG_SIGNED`: the turn argument is sign-extended instead of zero-extended (D12). -/
  wheelArgSigned : Bool
  /-- `RESYNC_ON_DLE_STX`: DLE STX inside a frame restarts it (D20, conflict C3). -/
  resyncOnDleStx : Bool
  deriving DecidableEq, Repr

/-- The ranges R7 gives: `BUF_CAP >= 5` and `WHEEL_W >= 9`; the counts are any natural number. -/
abbrev Config.Wf (c : Config) : Prop := 5 ≤ c.bufCap ∧ 9 ≤ c.wheelW

/-- The setting of `State.reset`. `WHEEL_W` and the three switches are the spec's values (R7).
DESIGN CHOICE, unsafe: the three OPEN capacities take the values spec/95_test_vectors.md uses
(notes/assumptions/2.md). -/
def Config.default : Config where
  bufCap := 32
  maxButtons := 4
  maxWheels := 4
  wheelW := 16
  wheelAccumulate := false
  wheelArgSigned := false
  resyncOnDleStx := false

end Sys2Proof
end

