-- ==== Sys2Proof/Syntax.lean ====
section
/-! DEFINITION. The instruction set: one constructor of `Instr` per row of spec/opcode_table.json, and the five shapes
in which the environment hands an operation to the block (`Item`). -/

namespace Sys2Proof

/-- One constructor per row of the opcode table, in the table's order. -/
inductive Instr where
  /-- DLE, the wire byte `0x10` (R52). -/
  | dle
  /-- STX, the wire byte `0x02` (R52). -/
  | stx
  /-- ETX, the wire byte `0x03` (R52). -/
  | etx
  /-- ACK, the wire byte `0x06` (R52). -/
  | ack
  /-- FRAME, the wire frame `10 02 <body> 10 03 <cs>` (R51). -/
  | frame (body : List Byte) (cs : Byte)
  /-- NOTIFY_79_38, payload `[0x79, 0x38, extra...]` (R102). -/
  | notify7938 (extra : List Byte)
  /-- NOTIFY_79_FF, payload `[0x79, 0xFF, extra...]` (R102). -/
  | notify79FF (extra : List Byte)
  /-- DROP_79, payload `[0x79, args...]` with no qualifying argument (R103). -/
  | drop79 (args : List Byte)
  /-- NOTIFY_35, payload `[0x35, extra...]` (R104). -/
  | notify35 (extra : List Byte)
  /-- BTN_SET, payload `[0x30, id, extra...]` (R105). -/
  | btnSet (id : Byte) (extra : List Byte)
  /-- BTN_CLR, payload `[0x31, id, extra...]` (R106). -/
  | btnClr (id : Byte) (extra : List Byte)
  /-- WHL40_POS, payload `[0x40, a, extra...]` (R108). -/
  | whl40Pos (a : Byte) (extra : List Byte)
  /-- WHL40_NEG, payload `[0x41, a, extra...]` (R109). -/
  | whl40Neg (a : Byte) (extra : List Byte)
  /-- WHL50_POS, payload `[0x50, a, extra...]` (R110). -/
  | whl50Pos (a : Byte) (extra : List Byte)
  /-- WHL50_NEG, payload `[0x51, a, extra...]` (R111). -/
  | whl50Neg (a : Byte) (extra : List Byte)
  /-- DROP, every payload no other inbound row takes (R112). -/
  | drop (p : List Byte)
  /-- SET_ILLUMINATION, outbound payload `[0x60, b]` (R134). -/
  | setIllumination (b : Byte)
  /-- SET_HIGHLIGHT, outbound payload `[0x64, b, 0x01]` (R135). -/
  | setHighlight (b : Byte)
  /-- SET_LIGHT_GROUP, outbound payload `[0x68, s, 0x10, 0x10]` (R136). -/
  | setLightGroup (on : Bool)
  /-- SET_LIGHT, outbound payload `[0x68, s, id]` with `id != 0x10` (R136). -/
  | setLight (on : Bool) (id : Byte)
  /-- ENABLE_KEYS, outbound payload `[0x70, 0x12]` (R137). -/
  | enableKeys
  /-- SHUTDOWN, outbound payload `[0x70, 0x11]` (R138). -/
  | shutdown
  /-- RESET, interface op `0x0` (R128). -/
  | reset
  /-- RX, interface op `0x1` (R75). -/
  | rx (b : Byte)
  /-- TICK, interface op `0x2` (R119). -/
  | tick
  /-- REG_BUTTON, interface op `0x3` (R129). -/
  | regButton (id : Byte)
  /-- REG_WHEEL, interface op `0x4` (R130). -/
  | regWheel (sel : Byte)
  /-- SEND, interface op `0x5` (R133). -/
  | send (p : List Byte)
  /-- READ_LEVEL, interface op `0x6` (R124). -/
  | readLevel (i : Nat)
  /-- READ_DELTA, interface op `0x7` (R123). -/
  | readDelta (i : Nat)
  /-- WAS_TURNED, interface op `0x8` (R122). -/
  | wasTurned (i : Nat)
  /-- SET_ILLUMINATION_OP, interface op `0x9` (R134). -/
  | setIlluminationOp (b : Byte)
  /-- SET_HIGHLIGHT_OP, interface op `0xA` (R135). -/
  | setHighlightOp (b : Byte)
  /-- SET_LIGHT_OP, interface op `0xB`; `on` is the interface word's byte, which the machine reads as a Boolean or
  refuses (R64, R136). -/
  | setLightOp (id on : Byte)
  /-- ENABLE_KEYS_OP, interface op `0xC` (R137). -/
  | enableKeysOp
  /-- SHUTDOWN_OP, interface op `0xD` (R138). -/
  | shutdownOp
  /-- UPDATE, interface op `0xE` (R145). -/
  | update (bs : List Byte)
  /-- RESERVED_F, interface op `0xF` (R143). -/
  | reservedF
  deriving DecidableEq, Repr

/-- What the environment hands the block in one step: the five `format`s of the opcode table. -/
inductive Item where
  /-- One control byte on the inbound wire (R52). -/
  | wireByte (b : Byte)
  /-- One whole frame on the inbound wire (R51). -/
  | wireFrame (bs : List Byte)
  /-- One payload at the dispatcher (R55, R56). -/
  | inbound (p : List Byte)
  /-- One payload at the transmit encoder (R60). -/
  | outbound (p : List Byte)
  /-- One interface operation word: the 4-bit op code and then its operands, a byte or Boolean as a number below 256,
  an index as a natural number, a byte list as its length followed by its bytes (R64). -/
  | iface (word : List Nat)
  deriving DecidableEq, Repr

/-- An item and where it was issued: `fromSink` says from inside the notification sink, during the step that notifies
(R158). -/
structure Issue where
  item : Item
  fromSink : Bool
  deriving DecidableEq, Repr

end Sys2Proof
end

