-- ==== Sys2Proof/WellFormed.lean ====
section
/-! DEFINITION. Which terms of `Instr` an encoding stands for: the conditions of the opcode table's rows that the
types do not already carry (the `condition` and `id` entries of DROP_79, DROP and SET_LIGHT). -/

namespace Sys2Proof

/-- The argument bytes that make `0x79` a notification (R102). -/
def qualifies79 (a : Byte) : Bool := a == 0x38 || a == 0xFF

/-- `payload[0]` values whose row needs a `payload[1]` (R56): the button and wheel commands. -/
def needsArgument (op : Byte) : Bool :=
  op == 0x30 || op == 0x31 || op == 0x40 || op == 0x41 || op == 0x50 || op == 0x51

/-- The payloads of the DROP row: the empty one, an opcode R56 does not list, and a listed one without its argument
(R58, R112). The payloads of `0x79` have the row DROP_79. -/
def isDropped : List Byte → Bool
  | [] => true
  | op :: args => !(op == 0x79) && !(op == 0x35) && (!(needsArgument op) || args.isEmpty)

/-- The checks of one instruction. -/
def Instr.wellFormed : Instr → Bool
  | .drop79 [] => true
  | .drop79 (a :: _) => !(qualifies79 a)
  | .drop p => isDropped p
  | .setLight _ id => !(id == 0x10)
  | .dle | .stx | .etx | .ack | .frame _ _ | .notify7938 _ | .notify79FF _ | .notify35 _ | .btnSet _ _ | .btnClr _ _
  | .whl40Pos _ _ | .whl40Neg _ _ | .whl50Pos _ _ | .whl50Neg _ _ | .setIllumination _ | .setHighlight _
  | .setLightGroup _ | .enableKeys | .shutdown | .reset | .rx _ | .tick | .regButton _ | .regWheel _ | .send _
  | .readLevel _ | .readDelta _ | .wasTurned _ | .setIlluminationOp _ | .setHighlightOp _ | .setLightOp _ _
  | .enableKeysOp | .shutdownOp | .update _ | .reservedF => true

end Sys2Proof
end

