-- ==== Sys2Proof/Decode.lean ====
section
/-! DEFINITION. The decoder, total on every item and rejecting by name, and after it the encoder, both written from
spec/30_encoding.md (R51, R52, R56, R60, R63, R64); last, how a word of the opcode table is laid out as an item. -/

namespace Sys2Proof

/-- The fixed framing bytes (R7, R52). -/
def DLE : Byte := 0x10
/-- See `DLE`. -/
def STX : Byte := 0x02
/-- See `DLE`. -/
def ETX : Byte := 0x03
/-- The acknowledgment byte (R52). -/
def ACK : Byte := 0x06

/-- Why the decoder gives an item no instruction. Every one is raised by `decode` alone; `step` then refuses, which
is safe: no such item is an instruction of the spec. -/
inductive DecodeError where
  /-- A wire byte without framing meaning: it is no row of the table, and arrives as RX instead (R52). -/
  | notAControlByte (b : Byte)
  /-- Bytes that do not have the layout `10 02 ... 10 03 cs` (R51). -/
  | notAFrame
  /-- A payload that no command builder produces (R60). -/
  | notAnOutboundPayload
  /-- An operation word with no op code (R64). -/
  | emptyWord
  /-- An op code that does not fit 4 bits (R63). -/
  | opCodeOutOfRange (n : Nat)
  /-- The operands are not those the op code has (R63). -/
  | operandMismatch (op : Nat)
  /-- A byte operand of 256 or more (R64). -/
  | byteOutOfRange (n : Nat)
  deriving DecidableEq, Repr

/-- The control bytes, one row each (R52). -/
def decodeWireByte (b : Byte) : Except DecodeError Instr :=
  if b = DLE then .ok .dle
  else if b = STX then .ok .stx
  else if b = ETX then .ok .etx
  else if b = ACK then .ok .ack
  else .error (.notAControlByte b)

/-- The bytes after DLE STX, in reverse: the checksum, ETX, DLE, and then the body backwards (R51). -/
def decodeFrameTail : List Byte → Except DecodeError Instr
  | cs :: etx :: dle :: ydob =>
    if etx = ETX ∧ dle = DLE then .ok (.frame ydob.reverse cs) else .error .notAFrame
  | _ => .error .notAFrame

/-- The frame layout of R51: the last three bytes are the end DLE, ETX and the checksum. -/
def decodeWireFrame : List Byte → Except DecodeError Instr
  | dle :: stx :: rest =>
    if dle = DLE ∧ stx = STX then decodeFrameTail rest.reverse else .error .notAFrame
  | _ => .error .notAFrame

/-- A command whose row needs `payload[1]`: with it the command, without it DROP (R56, R58). -/
def withArgument (op : Byte) (args : List Byte) (command : Byte → List Byte → Instr) : Instr :=
  match args with
  | a :: extra => command a extra
  | [] => .drop [op]

/-- The two notifications of `0x79` and its drop (R102, R103). -/
def decodeNotify79 : List Byte → Instr
  | [] => .drop79 []
  | a :: extra =>
    if a = 0x38 then .notify7938 extra
    else if a = 0xFF then .notify79FF extra
    else .drop79 (a :: extra)

/-- The inbound rows of R56, in the table's order; every payload has exactly one. -/
def decodeInbound : List Byte → Instr
  | [] => .drop []
  | op :: args =>
    if op = 0x79 then decodeNotify79 args
    else if op = 0x35 then .notify35 args
    else if op = 0x30 then withArgument op args .btnSet
    else if op = 0x31 then withArgument op args .btnClr
    else if op = 0x40 then withArgument op args .whl40Pos
    else if op = 0x41 then withArgument op args .whl40Neg
    else if op = 0x50 then withArgument op args .whl50Pos
    else if op = 0x51 then withArgument op args .whl50Neg
    else .drop (op :: args)

/-- The on/off byte of the SET_LIGHT payloads: `0x01` on, `0x00` off (R60). -/
def decodeOnOff (s : Byte) : Except DecodeError Bool :=
  if s = 0x01 then .ok true else if s = 0x00 then .ok false else .error .notAnOutboundPayload

/-- The outbound rows of R60; the lengths are the builders' own. -/
def decodeOutbound : List Byte → Except DecodeError Instr
  | [op, x] =>
    if op = 0x60 then .ok (.setIllumination x)
    else if op = 0x70 ∧ x = 0x12 then .ok .enableKeys
    else if op = 0x70 ∧ x = 0x11 then .ok .shutdown
    else .error .notAnOutboundPayload
  | [op, x, y] =>
    if op = 0x64 ∧ y = 0x01 then .ok (.setHighlight x)
    else if op = 0x68 ∧ y ≠ 0x10 then (decodeOnOff x).map fun on => .setLight on y
    else .error .notAnOutboundPayload
  | [op, x, y, z] =>
    if op = 0x68 ∧ y = 0x10 ∧ z = 0x10 then (decodeOnOff x).map .setLightGroup
    else .error .notAnOutboundPayload
  | _ => .error .notAnOutboundPayload

/-- A byte operand of the operation word (R64). -/
def decodeByte (n : Nat) : Except DecodeError Byte :=
  if n < 256 then .ok (BitVec.ofNat 8 n) else .error (.byteOutOfRange n)

/-- The bytes of a byte-list operand (R64). -/
def decodeBytes : List Nat → Except DecodeError (List Byte)
  | [] => .ok []
  | n :: ns =>
    match decodeByte n, decodeBytes ns with
    | .ok b, .ok bs => .ok (b :: bs)
    | .error e, _ => .error e
    | .ok _, .error e => .error e

/-- No operand (R63). -/
def noOperand (op : Nat) (i : Instr) : List Nat → Except DecodeError Instr
  | [] => .ok i
  | _ => .error (.operandMismatch op)

/-- One byte operand (R63). -/
def byteOperand (op : Nat) (f : Byte → Instr) : List Nat → Except DecodeError Instr
  | [n] => (decodeByte n).map f
  | _ => .error (.operandMismatch op)

/-- Two byte operands (R63, SET_LIGHT). -/
def twoByteOperands (op : Nat) (f : Byte → Byte → Instr) : List Nat → Except DecodeError Instr
  | [n, m] =>
    match decodeByte n, decodeByte m with
    | .ok a, .ok b => .ok (f a b)
    | .error e, _ => .error e
    | .ok _, .error e => .error e
  | _ => .error (.operandMismatch op)

/-- One index operand (R63). -/
def indexOperand (op : Nat) (f : Nat → Instr) : List Nat → Except DecodeError Instr
  | [i] => .ok (f i)
  | _ => .error (.operandMismatch op)

/-- A byte-list operand: its length, then its bytes (R64). -/
def listOperand (op : Nat) (f : List Byte → Instr) : List Nat → Except DecodeError Instr
  | n :: ns => if ns.length = n then (decodeBytes ns).map f else .error (.operandMismatch op)
  | [] => .error (.operandMismatch op)

/-- The interface operation word of R64, by the op codes of R63. -/
def decodeIface : List Nat → Except DecodeError Instr
  | [] => .error .emptyWord
  | op :: args =>
    match op with
    | 0x0 => noOperand 0x0 .reset args
    | 0x1 => byteOperand 0x1 .rx args
    | 0x2 => noOperand 0x2 .tick args
    | 0x3 => byteOperand 0x3 .regButton args
    | 0x4 => byteOperand 0x4 .regWheel args
    | 0x5 => listOperand 0x5 .send args
    | 0x6 => indexOperand 0x6 .readLevel args
    | 0x7 => indexOperand 0x7 .readDelta args
    | 0x8 => indexOperand 0x8 .wasTurned args
    | 0x9 => byteOperand 0x9 .setIlluminationOp args
    | 0xA => byteOperand 0xA .setHighlightOp args
    | 0xB => twoByteOperands 0xB .setLightOp args
    | 0xC => noOperand 0xC .enableKeysOp args
    | 0xD => noOperand 0xD .shutdownOp args
    | 0xE => listOperand 0xE .update args
    | 0xF => noOperand 0xF .reservedF args
    | n => .error (.opCodeOutOfRange n)

/-- The decoder. -/
def decode : Item → Except DecodeError Instr
  | .wireByte b => decodeWireByte b
  | .wireFrame bs => decodeWireFrame bs
  | .inbound p => .ok (decodeInbound p)
  | .outbound p => decodeOutbound p
  | .iface w => decodeIface w

/-! ### The encoder -/

/-- The on/off byte (R60). -/
def encodeOnOff (on : Bool) : Byte := if on then 0x01 else 0x00

/-- The word of an operation with one byte operand (R64). -/
def byteWord (op : Nat) (b : Byte) : Item := .iface [op, b.toNat]

/-- The word of an operation with a byte-list operand (R64). -/
def listWord (op : Nat) (bs : List Byte) : Item := .iface (op :: bs.length :: bs.map BitVec.toNat)

/-- The item of an instruction, from the tables of R51, R52, R56, R60 and R63. -/
def encode : Instr → Item
  | .dle => .wireByte DLE
  | .stx => .wireByte STX
  | .etx => .wireByte ETX
  | .ack => .wireByte ACK
  | .frame body cs => .wireFrame ([DLE, STX] ++ body ++ [DLE, ETX, cs])
  | .notify7938 extra => .inbound (0x79 :: 0x38 :: extra)
  | .notify79FF extra => .inbound (0x79 :: 0xFF :: extra)
  | .drop79 args => .inbound (0x79 :: args)
  | .notify35 extra => .inbound (0x35 :: extra)
  | .btnSet id extra => .inbound (0x30 :: id :: extra)
  | .btnClr id extra => .inbound (0x31 :: id :: extra)
  | .whl40Pos a extra => .inbound (0x40 :: a :: extra)
  | .whl40Neg a extra => .inbound (0x41 :: a :: extra)
  | .whl50Pos a extra => .inbound (0x50 :: a :: extra)
  | .whl50Neg a extra => .inbound (0x51 :: a :: extra)
  | .drop p => .inbound p
  | .setIllumination b => .outbound [0x60, b]
  | .setHighlight b => .outbound [0x64, b, 0x01]
  | .setLightGroup on => .outbound [0x68, encodeOnOff on, 0x10, 0x10]
  | .setLight on id => .outbound [0x68, encodeOnOff on, id]
  | .enableKeys => .outbound [0x70, 0x12]
  | .shutdown => .outbound [0x70, 0x11]
  | .reset => .iface [0x0]
  | .rx b => byteWord 0x1 b
  | .tick => .iface [0x2]
  | .regButton id => byteWord 0x3 id
  | .regWheel sel => byteWord 0x4 sel
  | .send p => listWord 0x5 p
  | .readLevel i => .iface [0x6, i]
  | .readDelta i => .iface [0x7, i]
  | .wasTurned i => .iface [0x8, i]
  | .setIlluminationOp b => byteWord 0x9 b
  | .setHighlightOp b => byteWord 0xA b
  | .setLightOp id on => .iface [0xB, id.toNat, on.toNat]
  | .enableKeysOp => .iface [0xC]
  | .shutdownOp => .iface [0xD]
  | .update bs => listWord 0xE bs
  | .reservedF => .iface [0xF]

/-! ### Words of the opcode table -/

/-- The `k` bytes of a table word, the first byte most significant (spec/INDEX.md: `payload[0]` is the most
significant byte of `match`). -/
def wordBytes : Nat → Nat → List Byte
  | 0, _ => []
  | k + 1, w => BitVec.ofNat 8 (w / 256 ^ k) :: wordBytes k w

/-- The first item of `f 0`, ..., `f 3` that decodes: `f k` carries `k` operand bytes of zero. -/
def firstDecodable (f : Nat → Item) : Option Item :=
  [0, 1, 2, 3].find? (fun k => (decode (f k)).isOk) |>.map f

/-- A table word as an item, its operand bytes zero. The table numbers the rows of four formats over one word, so
words of different rows coincide: a one-byte word below 16 is read as an interface op (DESIGN CHOICE,
notes/assumptions/13.md). FRAME's word is completed by the layout's own fixed bytes, with an empty body. -/
def tableItem (nbits w : Nat) : Item :=
  let bs := wordBytes ((nbits + 7) / 8) w
  if nbits ≤ 8 ∧ w < 16 then
    (firstDecodable fun k => .iface (w :: List.replicate k 0)).getD (.iface [w])
  else if bs = [DLE] then .wireByte DLE
  else if bs = [DLE, STX] then .wireFrame [DLE, STX, DLE, ETX, 0]
  else
    (firstDecodable fun k => .outbound (bs ++ List.replicate k 0)).getD
      (.inbound (bs ++ List.replicate (2 - bs.length) 0))

/-- The instruction the decoder reads from a word of the opcode table. -/
def decodeTableWord (nbits w : Nat) : Option Instr :=
  match decode (tableItem nbits w) with
  | .ok i => some i
  | .error _ => none

end Sys2Proof
end

