-- ==== Sys2Proof/Machine/State.lean ====
section
/-! DEFINITION. The machine's state: every element of spec/10_state.md R13, and four fields of the model's own (`cfg`,
`result`, `input`, `inSink`); the reasons a step can stop; the state after reset (R32). -/

namespace Sys2Proof.Machine

/-- The framing state `fs` (R17). -/
inductive FrameState where
  | searchStart
  | startPending
  | inPayload
  | endPending
  | checksumWait
  deriving DecidableEq, Repr

/-- `stIdx` and `enIdx`: a sentinel or a buffer index (R19, R20). -/
inductive Cursor where
  /-- `SEARCHING`. -/
  | searching
  /-- `TENTATIVE`. -/
  | tentative
  /-- The confirmed position. -/
  | pos (i : Nat)
  deriving DecidableEq, Repr

/-- The registration window (R26). -/
inductive Phase where
  | setup
  | run
  deriving DecidableEq, Repr

/-- An event of the output trace (R31). -/
inductive Event where
  /-- A byte written to the transport. -/
  | tx (b : Byte)
  /-- A call of the notification sink. -/
  | notify (b : Byte)
  deriving DecidableEq, Repr

/-- The reasons of `refuse` (R153). They are not stops: a refused operation has a next state, with `refused` set. -/
inductive RefuseReason where
  | registerAfterSetup
  | badWheelSelector
  | readUnregistered
  | reservedOperation
  | badBooleanOperand
  | reentrantOperation
  deriving DecidableEq, Repr

/-- What the last operation returned (R63, R67). -/
inductive OpResult where
  /-- The operation returns nothing. -/
  | noResult
  /-- `OK i` of a registration. -/
  | ok (i : Nat)
  /-- `FAIL` of a registration. -/
  | fail
  /-- The Boolean of READ_LEVEL. -/
  | level (v : Bool)
  /-- The integer of READ_DELTA. -/
  | delta (d : Int)
  /-- The Boolean of WAS_TURNED. -/
  | turned (v : Bool)
  /-- No result, because the operation was refused for this reason. -/
  | refusedFor (r : RefuseReason)
  deriving DecidableEq, Repr

/-- A registered button (R23): `btnId[i]` and `btnLevel[i]`. -/
structure Button where
  id : Byte
  level : Bool
  deriving DecidableEq, Repr

/-- A registered wheel (R24): `whlSel[i]`, `whlPending[i]` and `whlCommitted[i]`. -/
structure Wheel where
  sel : Byte
  pending : Int
  committed : Int
  deriving DecidableEq, Repr

/-- The bytes of the frame buffer `buf`, by index (R22, R37): the cells that differ from the byte every unlisted index
holds (`unlistedByte`), indices rising. Each of the `BUF_CAP` indices holds a byte at all times. -/
abbrev Memory := List Host.Cell

/-- The byte an index holds that no cell lists, and so every byte of the buffer at `State.reset`. DESIGN CHOICE, unsafe:
the spec says 'any value', unobservable (R22, R32; notes/assumptions/3.md). -/
def unlistedByte : Byte := 0x00

/-- The buffer all of whose bytes are `unlistedByte`. -/
def Memory.blank : Memory := []

/-- A stop of the model itself. R146: no operation of the hardware faults. -/
inductive Fault where
  /-- `Store` outside `0 .. BUF_CAP-1`, raised by the buffer write; the spec asks for it (R38). Safe: an invariant
  rules it out. -/
  | storeOutOfBounds (index : Nat)
  /-- A read outside `0 .. BUF_CAP-1`, raised by the buffer read of the checksum step; the buffer has no such index
  (R37). Safe: an invariant rules it out. -/
  | readOutOfBounds (index : Nat)
  /-- The checksum step runs while a cursor is a sentinel, raised by the payload read (R21). Safe: an invariant
  rules it out. -/
  | cursorUnconfirmed
  deriving DecidableEq, Repr

/-- Why there is no next state although nothing is wrong with the machine. -/
inductive Refusal where
  /-- An instruction without a meaning, raised by `exec`'s own arms. Safe. -/
  | notModelled (mnemonic : String)
  /-- The next item is no instruction of the opcode table, raised by `step`. Safe. -/
  | undecodable (e : DecodeError)
  deriving DecidableEq, Repr

/-- The state. R13 says what the block holds; the last four fields are the model's own. -/
structure State where
  /-- The framing state (R17). -/
  fs : FrameState
  /-- The read cursor, the next write position (R18). -/
  rdIdx : Nat
  /-- The start cursor (R19). -/
  stIdx : Cursor
  /-- The end cursor (R20). -/
  enIdx : Cursor
  /-- The frame buffer, `BUF_CAP` bytes (R22). -/
  buf : Memory
  /-- The button registry (R23); `btnCount` is its length. -/
  buttons : List Button
  /-- The wheel registry (R24); `whlCount` is its length. -/
  wheels : List Wheel
  /-- The registration window (R26). -/
  phase : Phase
  /-- The output trace, oldest event first (R31). -/
  out : List Event
  /-- The refusal mark (R27). -/
  refused : Bool
  /-- The model's own: the parameters of R7, written by no operation (notes/assumptions/1.md). -/
  cfg : Config
  /-- The model's own: what the last operation returned (notes/assumptions/7.md). -/
  result : OpResult
  /-- The model's own: the operations the environment has chosen and the block has not yet performed, the next one
  first (R6; notes/assumptions/5.md). -/
  input : List Issue
  /-- The model's own: the operation being performed comes from inside the notification sink (R158;
  notes/assumptions/8.md). -/
  inSink : Bool
  deriving DecidableEq, Repr

/-- `btnCount` (R23). -/
def State.btnCount (s : State) : Nat := s.buttons.length

/-- `whlCount` (R24). -/
def State.whlCount (s : State) : Nat := s.wheels.length

/-- The start of a run under the parameters `c`, with the contents `m` in the buffer (R32): the state after RESET, with
`refused` false. The contents are an argument because the spec says 'any value'. -/
def State.resetWith (c : Config) (m : Memory) : State where
  fs := .searchStart
  rdIdx := 0
  stIdx := .searching
  enIdx := .searching
  buf := m
  buttons := []
  wheels := []
  phase := .setup
  out := []
  refused := false
  cfg := c
  result := .noResult
  input := []
  inSink := false

/-- The machine right after reset (R32), under `Config.default` (notes/assumptions/2.md), every byte of the buffer
`unlistedByte` (notes/assumptions/3.md). -/
def State.reset : State := State.resetWith Config.default Memory.blank

end Sys2Proof.Machine
end

