-- ==== Sys2Proof/Machine/Buffer.lean ====
section
/-! DEFINITION. The frame buffer's accesses, one byte each (spec/20_memory.md R37, R42, R43), over its canonical form:
indices strictly rising, and no cell for a byte an unlisted index holds. -/

namespace Sys2Proof.Machine

/-- The canonical form: equal buffers are equal lists. -/
abbrev Memory.wf (m : Memory) : Prop := (m.Pairwise fun c d => c.1 < d.1) ∧ ∀ c ∈ m, c.2 ≠ unlistedByte

/-- `MemRead(i, 1)` (R10): every index holds a byte. -/
def memRead : Memory → Nat → Byte
  | [], _ => unlistedByte
  | (j, v) :: m, i => if j = i then v else memRead m i

/-- The buffer without the cell of an index. -/
def memErase (m : Memory) (i : Nat) : Memory := m.filter fun c => c.1 != i

/-- A cell put in its place. -/
def memInsert : Memory → Nat → Byte → Memory
  | [], i, v => [(i, v)]
  | (j, w) :: m, i, v => if j < i then (j, w) :: memInsert m i v else (i, v) :: (j, w) :: m

/-- `MemWrite(i, 1, v)` (R10), keeping the canonical form. -/
def memWrite (m : Memory) (i : Nat) (v : Byte) : Memory :=
  if v = unlistedByte then memErase m i else memInsert (memErase m i) i v

/-- `buf[i .. i+n)`. -/
def memReadRange (m : Memory) (i : Nat) : Nat → List Byte
  | 0 => []
  | n + 1 => memRead m i :: memReadRange m (i + 1) n

end Sys2Proof.Machine
end

