-- ==== Sys2Proof/Machine/Flags.lean ====
section
/-! DEFINITION. The block has no flags (spec/10_state.md R16). These are the conditions its rules compute on demand and
do not keep: the checksum comparison, the overflow condition, the turned status. -/

namespace Sys2Proof.Machine

/-- The checksum of a payload, `(0x25 + sum(p)) mod 256` (R71). -/
def checksum (p : List Byte) : Byte := p.foldl (· + ·) 0x25

/-- The checksum step's comparison (R90). -/
def checksumMatches (p : List Byte) (b : Byte) : Bool := b == checksum p

/-- The overflow condition (R89): the buffer is full and the end is not confirmed. -/
def overflowed (s : State) : Bool := s.rdIdx == s.cfg.bufCap && s.fs != .checksumWait

/-- The turned status of a wheel, from `committed` alone (R122). -/
def turned (w : Wheel) : Bool := w.committed != 0

end Sys2Proof.Machine
end

