-- ==== Sys2Proof/Machine/Operands.lean ====
section
/-! DEFINITION. The operand forms: the turn argument (spec/30_encoding.md R57), the width of a delta (R9, R25), the
Boolean of the interface word (R64), the handle of a registered entry (R67) and the legal wheel selectors (R130). -/

namespace Sys2Proof.Machine

/-- `Arg(a)` (R57): zero-extended, or sign-extended when `WHEEL_ARG_SIGNED`. -/
def wheelArg (c : Config) (a : Byte) : Int := if c.wheelArgSigned then a.toInt else (a.toNat : Int)

/-- `wrap_W(v)` (R9): the residue of `v` modulo `2^W` in `-2^(W-1) .. 2^(W-1) - 1`. -/
def wrapDelta (w : Nat) (v : Int) : Int := v.bmod (2 ^ w)

/-- The Boolean a byte of the interface word stands for, if it does (R64). -/
def booleanOperand (b : Byte) : Option Bool :=
  if b = 0x00 then some false else if b = 0x01 then some true else none

/-- The selectors REG_WHEEL admits (R34, R130). -/
def legalSelector (sel : Byte) : Bool := sel == 0x40 || sel == 0x50

/-- The button a handle names (R67). -/
def buttonAt (s : State) (i : Nat) : Option Button := s.buttons[i]?

/-- The wheel a handle names (R67). -/
def wheelAt (s : State) (i : Nat) : Option Wheel := s.wheels[i]?

end Sys2Proof.Machine
end

