-- ==== Sys2Proof/Machine/Ops.lean ====
section
/-! DEFINITION. The shared operations: the primitives of spec/00_scope.md R10, the frame primitives R81, R82 and R89,
the encoder R73, and the input-state primitives R116, R117 and R119. The block takes no exception and returns from none
(R146, R156, R157); what stands in that place is `refuse` (R153) and the recovery `resetFrame` (R82). -/

namespace Sys2Proof.Machine

/-- What an operation answers. -/
abbrev Step := Host.Outcome State Fault Refusal

/-- One effect after another, stopping where the first stops. -/
def andThen (r : Step) (f : State → Step) : Step :=
  match r with
  | .next s => f s
  | .fault e => .fault e
  | .refused e => .refused e

/-- `return v` (R10). -/
def returning (r : OpResult) (s : State) : State := { s with result := r }

/-- `Emit(e)` (R10, R31). -/
def emit (e : Event) (s : State) : State := { s with out := s.out ++ [e] }

/-- `refuse <Reason>` (R10, R153): the mark is set, the rest of the block is as it was, and no result is returned. -/
def refuse (r : RefuseReason) (s : State) : State := { s with refused := true, result := .refusedFor r }

/-- Operations that may not be issued from inside the notification sink (R158). -/
def outsideSink (s : State) (f : State → Step) : Step :=
  if s.inSink then .next (refuse .reentrantOperation s) else f s

/-- `phase <- RUN` (R26). -/
def startRun (s : State) : State := { s with phase := .run }

/-! ### The frame buffer and the cursors -/

/-- `MemWrite(i, 1, b)` in bounds; outside, the fault R38 asks for. -/
def bufWrite (i : Nat) (b : Byte) (s : State) : Step :=
  if i < s.cfg.bufCap then .next { s with buf := memWrite s.buf i b } else .fault (.storeOutOfBounds i)

/-- `Store(b)` (R81). -/
def store (b : Byte) (s : State) : Step :=
  andThen (bufWrite s.rdIdx b s) fun s => .next { s with rdIdx := s.rdIdx + 1 }

/-- `ResetFrame()` (R82). -/
def resetFrame (s : State) : State :=
  { s with fs := .searchStart, rdIdx := 0, stIdx := .searching, enIdx := .searching }

/-- `OverflowCheck()` (R89). -/
def overflowCheck (s : State) : State := if overflowed s then resetFrame s else s

/-- `buf[i .. i+n)` in bounds; the first index outside the buffer faults (R37). -/
def bufReadRange (i n : Nat) (s : State) : Except Fault (List Byte) :=
  if n = 0 ∨ i + n ≤ s.cfg.bufCap then .ok (memReadRange s.buf i n)
  else .error (.readOutOfBounds (max i s.cfg.bufCap))

/-- The payload `buf[stIdx .. enIdx)` (R90, R93). -/
def readPayload (s : State) : Except Fault (List Byte) :=
  match s.stIdx, s.enIdx with
  | .pos i, .pos j => bufReadRange i (j - i) s
  | _, _ => .error .cursorUnconfirmed

/-! ### The transmit encoder -/

/-- `Encode(p)` (R73), with no escaping (R61, R74). -/
def encodeFrame (p : List Byte) : List Byte := [DLE, STX] ++ p ++ [DLE, ETX, checksum p]

/-- `SEND(p)` (R133): every byte of `Encode(p)`, in order, contiguous in `out` (R43). -/
def transmit (p : List Byte) (s : State) : State := { s with out := s.out ++ (encodeFrame p).map .tx }

/-- The payload of SET_LIGHT (R136). -/
def lightPayload (id : Byte) (on : Bool) : List Byte :=
  let state : Byte := if on then 0x01 else 0x00
  if id = 0x10 then [0x68, state, 0x10, 0x10] else [0x68, state, id]

/-! ### The input state -/

/-- `ButtonUpdate(id, v)` (R116): every button with this id (R142). -/
def buttonUpdate (id : Byte) (v : Bool) (s : State) : State :=
  { s with buttons := s.buttons.map fun b => if b.id = id then { b with level := v } else b }

/-- The new `pending` of one wheel (R117). -/
def applyDelta (c : Config) (d : Int) (w : Wheel) : Wheel :=
  { w with pending := if c.wheelAccumulate then wrapDelta c.wheelW (w.pending + d) else d }

/-- `WheelApply(sel, d)` (R117): every wheel with this selector (R142). -/
def wheelApply (sel : Byte) (d : Int) (s : State) : State :=
  { s with wheels := s.wheels.map fun w => if w.sel = sel then applyDelta s.cfg d w else w }

/-- One wheel at a tick (R119): `pending` moves to `committed` if they differ, and is zeroed. -/
def latchWheel (w : Wheel) : Wheel :=
  { w with committed := if w.pending ≠ w.committed then w.pending else w.committed, pending := 0 }

/-- TICK's effect (R119). -/
def latchWheels (s : State) : State := { startRun s with wheels := s.wheels.map latchWheel }

end Sys2Proof.Machine
end

