-- ==== Sys2Proof/Machine/Dispatcher.lean ====
section
/-! DEFINITION. The command decoder and dispatcher (spec/41_dispatcher.md): the routing of a validated payload, and the
meaning of each inbound row of the opcode table. A row standing alone is the dispatch of its payload, without the frame
that carries it (notes/assumptions/11.md). -/

namespace Sys2Proof.Machine

/-- The route of opcode `0x79` (R102, R103). -/
def dispatch79 (args : List Byte) (s : State) : State :=
  match args with
  | a :: _ => if a = 0x38 ∨ a = 0xFF then emit (.notify a) s else s
  | [] => s

/-- A route that needs `n > 1`; without its argument the payload is dropped (R112). -/
def routeArgument (args : List Byte) (command : Byte → State → State) (s : State) : State :=
  match args with
  | a :: _ => command a s
  | [] => s

/-- A turn of the wheels with selector `sel`, forwards (R108, R110). -/
def turnPos (sel a : Byte) (s : State) : State := wheelApply sel (wheelArg s.cfg a) s

/-- A turn of the wheels with selector `sel`, backwards (R109, R111). -/
def turnNeg (sel a : Byte) (s : State) : State := wheelApply sel (-(wheelArg s.cfg a)) s

/-- `Dispatch(p)`, one case on `p[0]` (R101, R115). -/
def dispatch (p : List Byte) (s : State) : State :=
  match p with
  | [] => s
  | op :: args =>
    if op = 0x79 then dispatch79 args s
    else if op = 0x35 then emit (.notify 0x35) s
    else if op = 0x30 then routeArgument args (fun id => buttonUpdate id true) s
    else if op = 0x31 then routeArgument args (fun id => buttonUpdate id false) s
    else if op = 0x40 then routeArgument args (turnPos 0x40) s
    else if op = 0x41 then routeArgument args (turnNeg 0x40) s
    else if op = 0x50 then routeArgument args (turnPos 0x50) s
    else if op = 0x51 then routeArgument args (turnNeg 0x50) s
    else s

/-- The end of a command: it returns nothing and never stops (R114). -/
def commanded (s : State) : Step := .next (returning .noResult s)

/-- NOTIFY_79_38 (R102). -/
def execNotify7938 (_extra : List Byte) (s : State) : Step := commanded (emit (.notify 0x38) s)

/-- NOTIFY_79_FF (R102). -/
def execNotify79FF (_extra : List Byte) (s : State) : Step := commanded (emit (.notify 0xFF) s)

/-- DROP_79 (R103): no effect. -/
def execDrop79 (_args : List Byte) (s : State) : Step := commanded s

/-- NOTIFY_35 (R104): the notified value is the constant `0x35`. -/
def execNotify35 (_extra : List Byte) (s : State) : Step := commanded (emit (.notify 0x35) s)

/-- BTN_SET (R105). -/
def execBtnSet (id : Byte) (_extra : List Byte) (s : State) : Step := commanded (buttonUpdate id true s)

/-- BTN_CLR (R106). -/
def execBtnClr (id : Byte) (_extra : List Byte) (s : State) : Step := commanded (buttonUpdate id false s)

/-- WHL40_POS (R108). -/
def execWhl40Pos (a : Byte) (_extra : List Byte) (s : State) : Step := commanded (turnPos 0x40 a s)

/-- WHL40_NEG (R109). -/
def execWhl40Neg (a : Byte) (_extra : List Byte) (s : State) : Step := commanded (turnNeg 0x40 a s)

/-- WHL50_POS (R110). -/
def execWhl50Pos (a : Byte) (_extra : List Byte) (s : State) : Step := commanded (turnPos 0x50 a s)

/-- WHL50_NEG (R111). -/
def execWhl50Neg (a : Byte) (_extra : List Byte) (s : State) : Step := commanded (turnNeg 0x50 a s)

/-- DROP (R112): no effect. -/
def execDrop (_p : List Byte) (s : State) : Step := commanded s

end Sys2Proof.Machine
end

