-- ==== Sys2Proof/Machine/FrameCodec.lean ====
section
/-! DEFINITION. The frame codec (spec/40_framecodec.md): RX case by case (R75 to R92), and the meanings of RX, of the
four control bytes on the wire and of a whole frame on the wire. -/

namespace Sys2Proof.Machine

/-- SEARCH_START (R76, R77, R78). -/
def rxSearchStart (b : Byte) (s : State) : Step :=
  if b = DLE then
    andThen (store DLE s) fun s => .next (overflowCheck { s with stIdx := .tentative, fs := .startPending })
  else if b = ACK then .next { s with rdIdx := 0 }
  else .next s

/-- START_PENDING (R79, R80). -/
def rxStartPending (b : Byte) (s : State) : Step :=
  if b = STX then
    andThen (store STX s) fun s => .next (overflowCheck { s with stIdx := .pos s.rdIdx, fs := .inPayload })
  else .next (resetFrame s)

/-- IN_PAYLOAD (R83, R84). -/
def rxInPayload (b : Byte) (s : State) : Step :=
  if b = DLE then
    andThen (store DLE s) fun s => .next (overflowCheck { s with enIdx := .tentative, fs := .endPending })
  else andThen (store b s) fun s => .next (overflowCheck s)

/-- The end is confirmed (R85): the buffered DLE is the first byte past the payload. No overflow check. -/
def confirmEnd (s : State) : Step :=
  andThen (store ETX { s with enIdx := .pos (s.rdIdx - 1) }) fun s => .next { s with fs := .checksumWait }

/-- A DLE STX pair inside a frame restarts it, under `RESYNC_ON_DLE_STX` (R87). -/
def restartFrame (s : State) : Step :=
  andThen (bufWrite 0 DLE s) fun s =>
    andThen (bufWrite 1 STX s) fun s =>
      .next { s with rdIdx := 2, stIdx := .pos 2, enIdx := .searching, fs := .inPayload }

/-- A false end (R88): the byte joins the payload, and so does the DLE buffered before it. -/
def falseEnd (b : Byte) (s : State) : Step :=
  andThen (store b s) fun s => .next (overflowCheck { s with enIdx := .searching, fs := .inPayload })

/-- END_PENDING (R85, R86, R87, R88). -/
def rxEndPending (b : Byte) (s : State) : Step :=
  if b = ETX then confirmEnd s
  else if b = DLE then .next s
  else if b = STX ∧ s.cfg.resyncOnDleStx = true then restartFrame s
  else falseEnd b s

/-- A frame whose checksum matches (R91): acknowledge, dispatch, reset the frame, in this order. -/
def deliver (p : List Byte) (s : State) : State := resetFrame (dispatch p (emit (.tx ACK) s))

/-- CHECKSUM_WAIT (R90, R91, R92). The checksum byte is not stored. -/
def rxChecksumWait (b : Byte) (s : State) : Step :=
  match readPayload s with
  | .ok p => if checksumMatches p b then .next (deliver p s) else .next (resetFrame s)
  | .error f => .fault f

/-- RX's effect (R75): the case of the framing state, after `phase <- RUN`. -/
def rxByte (b : Byte) (s : State) : Step :=
  match s.fs with
  | .searchStart => rxSearchStart b (startRun s)
  | .startPending => rxStartPending b (startRun s)
  | .inPayload => rxInPayload b (startRun s)
  | .endPending => rxEndPending b (startRun s)
  | .checksumWait => rxChecksumWait b (startRun s)

/-- RX of each byte in order (R65, R141). -/
def rxAll : List Byte → State → Step
  | [], s => .next s
  | b :: bs, s => andThen (rxByte b s) (rxAll bs)

/-- An operation that receives bytes: refused from inside the sink (R158), and with no result (R63). -/
def receive (bs : List Byte) (s : State) : Step :=
  outsideSink s fun s => rxAll bs (returning .noResult s)

/-- DLE on the wire (R52): RX of `0x10`. -/
def execDle (s : State) : Step := receive [DLE] s

/-- STX on the wire (R52): RX of `0x02`. -/
def execStx (s : State) : Step := receive [STX] s

/-- ETX on the wire (R52): RX of `0x03`. -/
def execEtx (s : State) : Step := receive [ETX] s

/-- ACK on the wire (R52): RX of `0x06`. -/
def execAck (s : State) : Step := receive [ACK] s

/-- FRAME on the wire (R51): RX of `10 02`, the body, `10 03` and the checksum byte, in order. -/
def execFrame (body : List Byte) (cs : Byte) (s : State) : Step :=
  receive ([DLE, STX] ++ body ++ [DLE, ETX, cs]) s

/-- RX (R75). -/
def execRx (b : Byte) (s : State) : Step := receive [b] s

end Sys2Proof.Machine
end

