-- ==== Sys2Proof/Machine/Polling.lean ====
section
/-! DEFINITION. The input-state operations (spec/42_polling.md): TICK and the three reads. A read changes nothing in the
block (R125): its value is the model's field `result`, and a handle that names no entry is refused (R153). -/

namespace Sys2Proof.Machine

/-- TICK (R119). -/
def execTick (s : State) : Step := outsideSink s fun s => .next (returning .noResult (latchWheels s))

/-- READ_LEVEL (R124). -/
def execReadLevel (i : Nat) (s : State) : Step :=
  match buttonAt s i with
  | some b => .next (returning (.level b.level) s)
  | none => .next (refuse .readUnregistered s)

/-- READ_DELTA (R123). -/
def execReadDelta (i : Nat) (s : State) : Step :=
  match wheelAt s i with
  | some w => .next (returning (.delta w.committed) s)
  | none => .next (refuse .readUnregistered s)

/-- WAS_TURNED (R122). -/
def execWasTurned (i : Nat) (s : State) : Step :=
  match wheelAt s i with
  | some w => .next (returning (.turned (turned w)) s)
  | none => .next (refuse .readUnregistered s)

end Sys2Proof.Machine
end

