-- ==== Sys2Proof/Machine/Controller.lean ====
section
/-! DEFINITION. The controller operations (spec/43_controller.md): RESET, registration, SEND, the command builders in
their outbound-payload form and as interface ops, UPDATE, and the reserved op. -/

namespace Sys2Proof.Machine

/-! ### Reset and registration -/

/-- RESET's effect (R128): `buf` and `refused` are not written. -/
def resetBlock (s : State) : State :=
  { resetFrame s with buttons := [], wheels := [], phase := .setup, out := [] }

/-- RESET (R128). -/
def execReset (s : State) : Step := outsideSink s fun s => .next (returning .noResult (resetBlock s))

/-- The new entry of REG_BUTTON (R129). -/
def addButton (id : Byte) (s : State) : State := { s with buttons := s.buttons ++ [{ id := id, level := false }] }

/-- The new entry of REG_WHEEL (R130). -/
def addWheel (sel : Byte) (s : State) : State :=
  { s with wheels := s.wheels ++ [{ sel := sel, pending := 0, committed := 0 }] }

/-- REG_BUTTON (R129). -/
def execRegButton (id : Byte) (s : State) : Step :=
  outsideSink s fun s =>
    if s.phase ≠ .setup then .next (refuse .registerAfterSetup s)
    else if s.btnCount = s.cfg.maxButtons then .next (returning .fail s)
    else .next (returning (.ok s.btnCount) (addButton id s))

/-- REG_WHEEL (R130). -/
def execRegWheel (sel : Byte) (s : State) : Step :=
  outsideSink s fun s =>
    if s.phase ≠ .setup then .next (refuse .registerAfterSetup s)
    else if legalSelector sel = false then .next (refuse .badWheelSelector s)
    else if s.whlCount = s.cfg.maxWheels then .next (returning .fail s)
    else .next (returning (.ok s.whlCount) (addWheel sel s))

/-! ### Transmit -/

/-- An operation that sends one payload and returns nothing (R133). -/
def sending (p : List Byte) (s : State) : Step := .next (returning .noResult (transmit p s))

/-- SEND (R133). -/
def execSend (p : List Byte) (s : State) : Step := sending p s

/-- SET_ILLUMINATION, the outbound payload (R134). -/
def execSetIllumination (b : Byte) (s : State) : Step := sending [0x60, b] s

/-- SET_HIGHLIGHT, the outbound payload (R135). -/
def execSetHighlight (b : Byte) (s : State) : Step := sending [0x64, b, 0x01] s

/-- SET_LIGHT_GROUP, the outbound payload of light `0x10` (R136). -/
def execSetLightGroup (on : Bool) (s : State) : Step := sending (lightPayload 0x10 on) s

/-- SET_LIGHT, the outbound payload of a single light (R136). -/
def execSetLight (on : Bool) (id : Byte) (s : State) : Step := sending (lightPayload id on) s

/-- ENABLE_KEYS, the outbound payload (R137). -/
def execEnableKeys (s : State) : Step := sending [0x70, 0x12] s

/-- SHUTDOWN, the outbound payload (R138). -/
def execShutdown (s : State) : Step := sending [0x70, 0x11] s

/-- SET_ILLUMINATION, the interface op (R134). -/
def execSetIlluminationOp (b : Byte) (s : State) : Step := sending [0x60, b] s

/-- SET_HIGHLIGHT, the interface op (R135). -/
def execSetHighlightOp (b : Byte) (s : State) : Step := sending [0x64, b, 0x01] s

/-- SET_LIGHT, the interface op (R136): a byte that is no Boolean is refused (R64, R153). -/
def execSetLightOp (id on : Byte) (s : State) : Step :=
  match booleanOperand on with
  | some v => sending (lightPayload id v) s
  | none => .next (refuse .badBooleanOperand s)

/-- ENABLE_KEYS, the interface op (R137). -/
def execEnableKeysOp (s : State) : Step := sending [0x70, 0x12] s

/-- SHUTDOWN, the interface op (R138): a command to the panel; the block goes on. -/
def execShutdownOp (s : State) : Step := sending [0x70, 0x11] s

/-! ### The controller cycle and the reserved op -/

/-- UPDATE (R145): RX of each byte in order, then TICK; refused from inside the sink (R158). -/
def execUpdate (bs : List Byte) (s : State) : Step :=
  outsideSink s fun s => andThen (rxAll bs (returning .noResult s)) fun s => .next (latchWheels s)

/-- RESERVED_F (R143): refused. -/
def execReservedF (s : State) : Step := .next (refuse .reservedOperation s)

end Sys2Proof.Machine
end

