-- ==== Sys2Proof/Machine/Dispatch.lean ====
section
/-! DEFINITION. The meaning of every instruction, one arm per constructor. -/

namespace Sys2Proof.Machine

def exec (i : Instr) (s : State) : Host.Outcome State Fault Refusal :=
  match i with
  | .dle => Sys2Proof.Machine.execDle s
  | .stx => Sys2Proof.Machine.execStx s
  | .etx => Sys2Proof.Machine.execEtx s
  | .ack => Sys2Proof.Machine.execAck s
  | .frame body cs => Sys2Proof.Machine.execFrame body cs s
  | .notify7938 extra => Sys2Proof.Machine.execNotify7938 extra s
  | .notify79FF extra => Sys2Proof.Machine.execNotify79FF extra s
  | .drop79 args => Sys2Proof.Machine.execDrop79 args s
  | .notify35 extra => Sys2Proof.Machine.execNotify35 extra s
  | .btnSet id extra => Sys2Proof.Machine.execBtnSet id extra s
  | .btnClr id extra => Sys2Proof.Machine.execBtnClr id extra s
  | .whl40Pos a extra => Sys2Proof.Machine.execWhl40Pos a extra s
  | .whl40Neg a extra => Sys2Proof.Machine.execWhl40Neg a extra s
  | .whl50Pos a extra => Sys2Proof.Machine.execWhl50Pos a extra s
  | .whl50Neg a extra => Sys2Proof.Machine.execWhl50Neg a extra s
  | .drop p => Sys2Proof.Machine.execDrop p s
  | .setIllumination b => Sys2Proof.Machine.execSetIllumination b s
  | .setHighlight b => Sys2Proof.Machine.execSetHighlight b s
  | .setLightGroup on => Sys2Proof.Machine.execSetLightGroup on s
  | .setLight on id => Sys2Proof.Machine.execSetLight on id s
  | .enableKeys => Sys2Proof.Machine.execEnableKeys s
  | .shutdown => Sys2Proof.Machine.execShutdown s
  | .reset => Sys2Proof.Machine.execReset s
  | .rx b => Sys2Proof.Machine.execRx b s
  | .tick => Sys2Proof.Machine.execTick s
  | .regButton id => Sys2Proof.Machine.execRegButton id s
  | .regWheel sel => Sys2Proof.Machine.execRegWheel sel s
  | .send p => Sys2Proof.Machine.execSend p s
  | .readLevel n => Sys2Proof.Machine.execReadLevel n s
  | .readDelta n => Sys2Proof.Machine.execReadDelta n s
  | .wasTurned n => Sys2Proof.Machine.execWasTurned n s
  | .setIlluminationOp b => Sys2Proof.Machine.execSetIlluminationOp b s
  | .setHighlightOp b => Sys2Proof.Machine.execSetHighlightOp b s
  | .setLightOp id on => Sys2Proof.Machine.execSetLightOp id on s
  | .enableKeysOp => Sys2Proof.Machine.execEnableKeysOp s
  | .shutdownOp => Sys2Proof.Machine.execShutdownOp s
  | .update bs => Sys2Proof.Machine.execUpdate bs s
  | .reservedF => Sys2Proof.Machine.execReservedF s

end Sys2Proof.Machine
end

