-- ==== Sys2Proof/Machine/Fetch.lean ====
section
/-! DEFINITION. The next operation. The block fetches no instructions (spec/20_memory.md R49): the environment chooses
which operation comes next (R6), and its choices stand in `input`. -/

namespace Sys2Proof.Machine

/-- The next item and the state in which it is performed: it has left the queue, and `inSink` says where it was issued
(R158). -/
def fetch (s : State) : Option (Item × State) :=
  match s.input with
  | [] => none
  | it :: rest => some (it.item, { s with input := rest, inSink := it.fromSink })

/-- The state with an item of the environment's put before everything it has chosen so far. -/
def issue (it : Item) (s : State) : State := { s with input := { item := it, fromSink := false } :: s.input }

end Sys2Proof.Machine
end

