-- ==== Sys2Proof/Machine/Step.lean ====
section
/-! DEFINITION. One step: the next operation of the environment, decoded and performed (spec/00_scope.md R6). -/

namespace Sys2Proof.Machine

/-- One step. With no operation to perform the block stays as it is: it has no internal agent (R6;
notes/assumptions/5.md). -/
def step (s : State) : Host.Outcome State Fault Refusal :=
  match fetch s with
  | none => .next s
  | some (it, s') =>
    match decode it with
    | .ok i => exec i s'
    | .error e => .refused (.undecodable e)

/-- `s` with the instruction of a table word as the operation it performs next. -/
def State.withFetchWord (s : State) (nbits w : Nat) : State := issue (tableItem nbits w) s

end Sys2Proof.Machine
end

