-- ==== Sys2Proof/Machine/Expansion.lean ====
section
/-! DEFINITION. The pseudo-operations' expansions (spec/30_encoding.md R66), and in the same way what an instruction of
the other formats abbreviates: a control byte and a frame on the wire are RX operations (R52, R65), an outbound payload is
one SEND (R60). The meanings do not use this text; a statement compares the two. -/

namespace Sys2Proof.Machine

/-- The expansion of SET_LIGHT (R66). -/
def expandLight (id : Byte) (on : Bool) : List Instr :=
  if id = 0x10 then
    if on then [.send [0x68, 0x01, 0x10, 0x10]] else [.send [0x68, 0x00, 0x10, 0x10]]
  else
    if on then [.send [0x68, 0x01, id]] else [.send [0x68, 0x00, id]]

/-- The operations an instruction abbreviates; every other instruction stands for itself. -/
def expand : Instr → List Instr
  | .dle => [.rx 0x10]
  | .stx => [.rx 0x02]
  | .etx => [.rx 0x03]
  | .ack => [.rx 0x06]
  | .frame body cs => [.rx 0x10, .rx 0x02] ++ body.map .rx ++ [.rx 0x10, .rx 0x03, .rx cs]
  | .setIllumination b => [.send [0x60, b]]
  | .setHighlight b => [.send [0x64, b, 0x01]]
  | .setLightGroup on => expandLight 0x10 on
  | .setLight on id => expandLight id on
  | .enableKeys => [.send [0x70, 0x12]]
  | .shutdown => [.send [0x70, 0x11]]
  | .setIlluminationOp b => [.send [0x60, b]]
  | .setHighlightOp b => [.send [0x64, b, 0x01]]
  | .setLightOp id on =>
    match booleanOperand on with
    | some v => expandLight id v
    | none => [.setLightOp id on]
  | .enableKeysOp => [.send [0x70, 0x12]]
  | .shutdownOp => [.send [0x70, 0x11]]
  | .update bs => bs.map .rx ++ [.tick]
  | .notify7938 extra => [.notify7938 extra]
  | .notify79FF extra => [.notify79FF extra]
  | .drop79 args => [.drop79 args]
  | .notify35 extra => [.notify35 extra]
  | .btnSet id extra => [.btnSet id extra]
  | .btnClr id extra => [.btnClr id extra]
  | .whl40Pos a extra => [.whl40Pos a extra]
  | .whl40Neg a extra => [.whl40Neg a extra]
  | .whl50Pos a extra => [.whl50Pos a extra]
  | .whl50Neg a extra => [.whl50Neg a extra]
  | .drop p => [.drop p]
  | .reset => [.reset]
  | .rx b => [.rx b]
  | .tick => [.tick]
  | .regButton id => [.regButton id]
  | .regWheel sel => [.regWheel sel]
  | .send p => [.send p]
  | .readLevel i => [.readLevel i]
  | .readDelta i => [.readDelta i]
  | .wasTurned i => [.wasTurned i]
  | .reservedF => [.reservedF]

end Sys2Proof.Machine
end

