-- ==== Sys2Proof/Safety.lean ====
section
/-! DEFINITION. What a good state is (the invariants of spec/10_state.md R21 to R25 and spec/20_memory.md R37 to R39), what
a run is and what is observed of it (spec/70_reset_and_hazards.md R177). -/

namespace Sys2Proof.Machine

/-- A delta fits `WHEEL_W`-bit two's complement (R25). -/
abbrev DeltaFits (w : Nat) (v : Int) : Prop := -(2 ^ (w - 1)) ≤ v ∧ v < 2 ^ (w - 1)

/-- The buffer holds these bytes at these indices. -/
abbrev BufHolds (s : State) (cells : List (Nat × Byte)) : Prop := ∀ c ∈ cells, memRead s.buf c.1 = c.2

/-- R21, row `SEARCH_START`. -/
abbrev SearchStartRow (s : State) : Prop := s.rdIdx = 0 ∧ s.stIdx = .searching ∧ s.enIdx = .searching

/-- R21, row `START_PENDING`. -/
abbrev StartPendingRow (s : State) : Prop :=
  s.rdIdx = 1 ∧ s.stIdx = .tentative ∧ s.enIdx = .searching ∧ BufHolds s [(0, DLE)]

/-- R21, row `IN_PAYLOAD`. -/
abbrev InPayloadRow (s : State) : Prop :=
  2 ≤ s.rdIdx ∧ s.rdIdx < s.cfg.bufCap ∧ s.stIdx = .pos 2 ∧ s.enIdx = .searching ∧ BufHolds s [(0, DLE), (1, STX)]

/-- R21, row `END_PENDING`. -/
abbrev EndPendingRow (s : State) : Prop :=
  3 ≤ s.rdIdx ∧ s.rdIdx < s.cfg.bufCap ∧ s.stIdx = .pos 2 ∧ s.enIdx = .tentative ∧
  BufHolds s [(0, DLE), (1, STX), (s.rdIdx - 1, DLE)]

/-- R21, row `CHECKSUM_WAIT`. -/
abbrev ChecksumWaitRow (s : State) : Prop :=
  4 ≤ s.rdIdx ∧ s.rdIdx ≤ s.cfg.bufCap ∧ s.stIdx = .pos 2 ∧ s.enIdx = .pos (s.rdIdx - 2) ∧
  BufHolds s [(0, DLE), (1, STX), (s.rdIdx - 2, DLE), (s.rdIdx - 1, ETX)]

/-- The table of R21, one row per framing state. -/
def FramingInv (s : State) : Prop :=
  (s.fs = .searchStart → SearchStartRow s) ∧ (s.fs = .startPending → StartPendingRow s) ∧
  (s.fs = .inPayload → InPayloadRow s) ∧ (s.fs = .endPending → EndPendingRow s) ∧
  (s.fs = .checksumWait → ChecksumWaitRow s)
  deriving Decidable

/-- The contents of a buffer of `cap` bytes: canonical, and no cell outside `0 .. cap-1` (R37, R38). -/
def BufferContents (cap : Nat) (m : Memory) : Prop := Memory.wf m ∧ ∀ c ∈ m, c.1 < cap
  deriving Decidable

/-- The buffer holds `BUF_CAP` bytes and nothing else (R37). -/
abbrev BufferInv (s : State) : Prop := BufferContents s.cfg.bufCap s.buf

/-- The registry: within its capacities, legal selectors, deltas in range (R13, R24, R25, R34). -/
def RegistryInv (s : State) : Prop :=
  s.btnCount ≤ s.cfg.maxButtons ∧ s.whlCount ≤ s.cfg.maxWheels ∧
  ∀ w ∈ s.wheels, legalSelector w.sel = true ∧ DeltaFits s.cfg.wheelW w.pending ∧ DeltaFits s.cfg.wheelW w.committed
  deriving Decidable

/-- A good state: the parameters are in their ranges, and the three invariants hold. -/
abbrev State.Inv (s : State) : Prop := s.cfg.Wf ∧ FramingInv s ∧ BufferInv s ∧ RegistryInv s

/-- A run about which claims are made carries no refusal (R27, R153). -/
abbrev Claimable (s : State) : Prop := s.refused = false

/-- A finite sequence of instructions, performed in order (R177). -/
def runInstrs : List Instr → State → Step
  | [], s => .next s
  | i :: is, s => andThen (exec i s) (runInstrs is)

/-- What is observed of a finite run (R177). -/
structure Observation where
  /-- The final output trace. -/
  out : List Event
  /-- What each operation returned, in order. -/
  results : List OpResult
  /-- Whether a refusal happened. -/
  refused : Bool
  /-- The final state. -/
  final : State
  deriving DecidableEq, Repr

/-- The observation of a run, if it does not stop (R177). -/
def observeRun : List Instr → State → Option Observation
  | [], s => some { out := s.out, results := [], refused := s.refused, final := s }
  | i :: is, s =>
    match exec i s with
    | .next t => (observeRun is t).map fun o => { o with results := t.result :: o.results }
    | .fault _ => none
    | .refused _ => none

/-! ### The terms the statements use -/

/-- The instructions that receive bytes from the wire, that is, RX and what is made of it (R37). -/
def receives : Instr → Bool
  | .dle | .stx | .etx | .ack | .frame _ _ | .rx _ | .update _ => true
  | .notify7938 _ | .notify79FF _ | .drop79 _ | .notify35 _ | .btnSet _ _ | .btnClr _ _ | .whl40Pos _ _ | .whl40Neg _ _
  | .whl50Pos _ _ | .whl50Neg _ _ | .drop _ | .setIllumination _ | .setHighlight _ | .setLightGroup _ | .setLight _ _
  | .enableKeys | .shutdown | .reset | .tick | .regButton _ | .regWheel _ | .send _ | .readLevel _ | .readDelta _
  | .wasTurned _ | .setIlluminationOp _ | .setHighlightOp _ | .setLightOp _ _ | .enableKeysOp | .shutdownOp
  | .reservedF => false

/-- `s` after an operation that receives and returns nothing, before the framing state machine moves. -/
def received (s : State) : State := { s with phase := .run, result := .noResult }

/-- `s` with the framing state machine searching (R32, rows `fs` to `enIdx`). -/
def searching (s : State) : State :=
  { s with fs := .searchStart, rdIdx := 0, stIdx := .searching, enIdx := .searching }

/-- `s` after the frame of `p` has been sent (R73, R133). -/
def sent (p : List Byte) (s : State) : State :=
  { s with
    out := s.out ++ (([0x10, 0x02] ++ p ++ [0x10, 0x03, checksum p]).map .tx)
    result := .noResult }

/-- `s` after an operation refused for the reason `r` (R153). -/
def refusedWith (r : RefuseReason) (s : State) : State := { s with refused := true, result := .refusedFor r }

/-- `m` is the buffer of `s` with the one byte `b` stored at index `i`, and every other index as it was. -/
def StoredAt (s : State) (i : Nat) (b : Byte) (m : Memory) : Prop :=
  ∀ a, memRead m a = if a = i then b else memRead s.buf a

/-- `m` is the buffer of `s` with the frame span of `p` at its front, and every other index as it was (R72). -/
def HoldsFrame (s : State) (p : List Byte) (m : Memory) : Prop :=
  ∀ a, memRead m a = ([0x10, 0x02] ++ p ++ [0x10, 0x03] : List Byte)[a]?.getD (memRead s.buf a)

/-- The payload `p` stands in the buffer of `s` between the confirmed cursors (R90). -/
def PayloadIs (s : State) (p : List Byte) : Prop :=
  ∃ i j, s.stIdx = .pos i ∧ s.enIdx = .pos j ∧ j ≤ s.cfg.bufCap ∧ p.length = j - i ∧
    ∀ k, k < p.length → p[k]? = some (memRead s.buf (i + k))

/-- Two states that differ at most in buffer bytes at or above the read cursor, that is, in bytes the current frame has
not stored (R18, R39). -/
def SameButUnstoredBytes (s t : State) : Prop :=
  t = { s with buf := t.buf } ∧ ∀ a, a < s.rdIdx → memRead t.buf a = memRead s.buf a

/-- The turn command of a selector (`0x50` or else `0x40`), a sign and an argument (R107). -/
def turnInstr (fifty neg : Bool) (a : Byte) : Instr :=
  match fifty, neg with
  | false, false => .whl40Pos a []
  | false, true => .whl40Neg a []
  | true, false => .whl50Pos a []
  | true, true => .whl50Neg a []

/-- The selector of a turn command (R107). -/
def turnSelector (fifty : Bool) : Byte := if fifty then 0x50 else 0x40

/-- The signed delta of a turn command (R107). -/
def turnDelta (c : Config) (neg : Bool) (a : Byte) : Int := if neg then -(wheelArg c a) else wheelArg c a

/-- `s` after a turn of the wheels with selector `sel` by `d`, under either value of `WHEEL_ACCUMULATE` (R117). -/
def turnedBy (sel : Byte) (d : Int) (s : State) : State :=
  { s with
    wheels := s.wheels.map fun w =>
      if w.sel = sel then
        { w with
          pending := if s.cfg.wheelAccumulate = true then wrapDelta s.cfg.wheelW (w.pending + d) else d }
      else w
    result := .noResult }

/-- `s` after every button with this id has taken the level `v` (R116). -/
def leveledTo (id : Byte) (v : Bool) (s : State) : State :=
  { s with buttons := s.buttons.map fun b => if b.id = id then { b with level := v } else b, result := .noResult }

/-- Deltas as the spec's default parameters produce them (R25). -/
def DefaultDeltas (s : State) : Prop :=
  s.cfg.wheelAccumulate = false ∧ s.cfg.wheelArgSigned = false ∧
  ∀ w ∈ s.wheels, (-255 ≤ w.pending ∧ w.pending ≤ 255) ∧ -255 ≤ w.committed ∧ w.committed ≤ 255
  deriving Decidable

end Sys2Proof.Machine
end

