-- ==== Sys2Proof/Certificates/Slice0/Obligations.lean ====
section
/-! DEFINITION. The statements for the provers. Each docstring names the rules of spec/ it formalises, or the spec
sections it rests on. -/

open Sys2Proof Sys2Proof.Machine

/-! ### Encoding -/

/-- Sections 1 to 3 of 30_encoding.md: every instruction is read back from its encoding, every operand at every value. -/
def Obligations.DecodeReadsBackEveryEncoding : Prop :=
  ∀ i : Instr, i.wellFormed = true → decode (encode i) = .ok i

/-- Sections 1 to 3 of 30_encoding.md: the decoder answers well-formed instructions alone, and each item that decodes is
the one encoding of its instruction. -/
def Obligations.EveryDecodedItemIsItsInstructionsEncoding : Prop :=
  ∀ (it : Item) (i : Instr), decode it = .ok i → i.wellFormed = true ∧ encode i = it

/-- Words of spec/95_test_vectors.md, one or more of each format, and the instruction each stands for. -/
def Obligations.SampleWordsDecodeAsTheSpecWritesThem : Prop :=
  decode (.wireByte 0x10) = .ok .dle ∧
  decode (.wireFrame [0x10, 0x02, 0x30, 0x07, 0x10, 0x03, 0x5C]) = .ok (.frame [0x30, 0x07] 0x5C) ∧
  decode (.inbound [0x79, 0xFF, 0x00, 0x00]) = .ok (.notify79FF [0x00, 0x00]) ∧
  decode (.inbound [0x79, 0x12]) = .ok (.drop79 [0x12]) ∧
  decode (.inbound [0x51, 0xFF]) = .ok (.whl50Neg 0xFF []) ∧
  decode (.inbound [0x40]) = .ok (.drop [0x40]) ∧
  decode (.outbound [0x68, 0x01, 0x10, 0x10]) = .ok (.setLightGroup true) ∧
  decode (.outbound [0x68, 0x00, 0x05]) = .ok (.setLight false 0x05) ∧
  decode (.iface [0x3, 0x07]) = .ok (.regButton 0x07) ∧
  decode (.iface [0xB, 0x10, 0x01]) = .ok (.setLightOp 0x10 0x01) ∧
  decode (.iface [0xE, 0x07, 0x10, 0x02, 0x30, 0x07, 0x10, 0x03, 0x5C]) =
    .ok (.update [0x10, 0x02, 0x30, 0x07, 0x10, 0x03, 0x5C])

/-! ### Arithmetic -/

/-- R71: the checksum is the seed plus the sum of the payload's bytes, modulo 256. -/
def Obligations.ChecksumIsSeedPlusSumModulo256 : Prop :=
  ∀ p : List Byte, (checksum p).toNat = (0x25 + (p.map BitVec.toNat).sum) % 256

/-- Section 6 of 00_scope.md (`wrap_W`): the one integer of the width's range that is congruent to `v`. -/
def Obligations.WrapIsTheResidueInTheWidthsRange : Prop :=
  ∀ (w : Nat) (v : Int), 1 ≤ w →
    DeltaFits w (wrapDelta w v) ∧ (v - wrapDelta w v) % 2 ^ w = 0 ∧
    ∀ u : Int, DeltaFits w u → (v - u) % 2 ^ w = 0 → u = wrapDelta w v

/-- Section 2 of 30_encoding.md (argument assembly): the turn argument is the byte as an unsigned number, or, when
`WHEEL_ARG_SIGNED`, as a two's-complement number. -/
def Obligations.TurnArgumentIsExtendedAsConfigured : Prop :=
  ∀ (c : Config) (a : Byte),
    wheelArg c a =
      if c.wheelArgSigned = true ∧ 128 ≤ a.toNat then (a.toNat : Int) - 256 else (a.toNat : Int)

/-! ### Steps -/

/-- Section 4 of 00_scope.md: where the environment's next item decodes to an instruction, the step is that instruction,
in the state whose queue the item has left and whose `inSink` says where it was issued. -/
def Obligations.StepRunsTheDecodedInstruction : Prop :=
  ∀ (s : State) (it : Item) (sink : Bool) (rest : List Issue) (i : Instr),
    s.input = { item := it, fromSink := sink } :: rest → decode it = .ok i →
    step s = exec i { s with input := rest, inSink := sink }

/-- The model's choice (notes/assumptions/5.md, 17.md; section 4 of 00_scope.md, no internal agent): with no operation the
block stays as it is, and an item that is no instruction is refused by name. -/
def Obligations.StepIdlesWithoutOperationAndRejectsByName : Prop :=
  (∀ s : State, s.input = [] → step s = .next s) ∧
  ∀ (s : State) (it : Issue) (rest : List Issue) (e : DecodeError),
    s.input = it :: rest → decode it.item = .error e → step s = .refused (.undecodable e)

/-- Section 4 of 00_scope.md and section 3 of 70_reset_and_hazards.md, over the model's own queue (notes/assumptions/5.md):
as many steps as there are encoded operations in the queue, none issued by the sink, perform exactly those operations, in
their order. -/
def Obligations.StepsPerformTheQueuedOperationsInOrder : Prop :=
  ∀ (is : List Instr) (s : State), (∀ i ∈ is, i.wellFormed = true) → s.inSink = false →
    Sys2Proof.core.run is.length { s with input := is.map fun i => { item := encode i, fromSink := false } } =
      runInstrs is { s with input := [] }

/-- Section 3 of 30_encoding.md (pseudo-operations), with control bytes, frames and outbound payloads read the same way: an
instruction does in one step what its expansion does in order, a stop included. -/
def Obligations.EveryInstructionEqualsItsExpansion : Prop :=
  ∀ (i : Instr) (s : State), exec i s = runInstrs (expand i) s

/-! ### Invariants and whole-machine rules -/

/-- Section 6 of 10_state.md: the state at the start of a run is a good one, under every legal setting of the
parameters and with any contents of the buffer. -/
def Obligations.ResetStateSatisfiesTheInvariant : Prop :=
  ∀ (c : Config) (m : Memory), c.Wf → BufferContents c.bufCap m → (State.resetWith c m).Inv

/-- Sections 2, 3 of 10_state.md and 1 of 20_memory.md: every step keeps the framing table, the buffer's canonical form and
bounds, and the registry's limits. -/
def Obligations.EveryStepKeepsTheInvariant : Prop :=
  ∀ s t : State, s.Inv → step s = .next t → t.Inv

/-- Section 1 of 60_exceptions.md, no operation traps, halts or stops the block: in a good state every instruction has a
next state. -/
def Obligations.NoInstructionStopsInAGoodState : Prop :=
  ∀ (i : Instr) (s : State), s.Inv → ∃ t, exec i s = .next t

/-- Section 3 of 10_state.md (the refusal mark), and the model's own fields (notes/assumptions/1.md, 5.md, 8.md): no
instruction clears the mark, and none writes the parameters, the queue or the sink mark. -/
def Obligations.NoInstructionClearsTheRefusalMark : Prop :=
  ∀ (i : Instr) (s t : State), exec i s = .next t →
    (s.refused = true → t.refused = true) ∧ t.cfg = s.cfg ∧ t.input = s.input ∧ t.inSink = s.inSink

/-- Section 4 of 10_state.md and section 1 of 20_memory.md: only receiving writes the buffer, and only receiving and RESET
write the framing state and the cursors. -/
def Obligations.OnlyReceivingWritesTheFrameBuffer : Prop :=
  ∀ (i : Instr) (s t : State), receives i = false → exec i s = .next t →
    (∀ a, memRead t.buf a = memRead s.buf a) ∧
    (i ≠ .reset → t.fs = s.fs ∧ t.rdIdx = s.rdIdx ∧ t.stIdx = s.stIdx ∧ t.enIdx = s.enIdx)

/-- Section 3 of 10_state.md: the committed deltas are written only by TICK (and UPDATE, which ends in one), apart from a
registration's new entry and RESET. -/
def Obligations.OnlyATickWritesCommittedDeltas : Prop :=
  ∀ (i : Instr) (s t : State), i ≠ .tick → (∀ bs, i ≠ .update bs) → i ≠ .reset → (∀ sel, i ≠ .regWheel sel) →
    exec i s = .next t → t.wheels.map (·.committed) = s.wheels.map (·.committed)

/-- Section 3 of 10_state.md and section 2 of 70_reset_and_hazards.md: a button's level changes only when a command is
dispatched, apart from a registration's new entry and RESET; no tick clears it. -/
def Obligations.OnlyACommandChangesButtonLevels : Prop :=
  ∀ (i : Instr) (s t : State), receives i = false → (∀ id extra, i ≠ .btnSet id extra ∧ i ≠ .btnClr id extra) →
    i ≠ .reset → (∀ id, i ≠ .regButton id) → exec i s = .next t → t.buttons = s.buttons

/-- Section 2 of 43_controller.md (handles are stable) and section 5 of 10_state.md (the trace): apart from RESET, an
instruction keeps every registered entry at its index, with its id or selector, and only appends to the trace. -/
def Obligations.HandlesStayAndTheTraceGrowsUntilReset : Prop :=
  ∀ (i : Instr) (s t : State), i ≠ .reset → exec i s = .next t →
    s.buttons.map (·.id) <+: t.buttons.map (·.id) ∧ s.wheels.map (·.sel) <+: t.wheels.map (·.sel) ∧ s.out <+: t.out

/-- Section 3 of 10_state.md (wheel delta format): under the default parameters every step keeps the deltas in
`-255 .. 255`. -/
def Obligations.DefaultDeltasStayWithin255 : Prop :=
  ∀ s t : State, DefaultDeltas s → step s = .next t → DefaultDeltas t

/-! ### RX, state by state -/

/-- Section 3.1 of 40_framecodec.md (R76), and the wire byte DLE as RX of `0x10` (the model's reading,
notes/assumptions/9.md): DLE while searching is stored, and opens a tentative frame. -/
def Obligations.DleWhileSearchingOpensAFrame : Prop :=
  ∀ s : State, s.fs = .searchStart → s.rdIdx = 0 → 5 ≤ s.cfg.bufCap → s.inSink = false →
    ∃ m, StoredAt s 0 0x10 m ∧
      exec (.rx 0x10) s =
        .next { received s with fs := .startPending, rdIdx := 1, stIdx := .tentative, buf := m } ∧
      exec .dle s = .next { received s with fs := .startPending, rdIdx := 1, stIdx := .tentative, buf := m }

/-- Section 3.1 of 40_framecodec.md (R77 and R78), and the wire byte ACK as RX of `0x06` (the model's reading,
notes/assumptions/9.md): while searching, ACK resets the read cursor, any other byte that is no DLE is ignored, and nothing
is stored. -/
def Obligations.OtherBytesWhileSearchingAreNotStored : Prop :=
  ∀ s : State, s.fs = .searchStart → s.inSink = false →
    exec (.rx 0x06) s = .next { received s with rdIdx := 0 } ∧
    exec .ack s = .next { received s with rdIdx := 0 } ∧
    ∀ b : Byte, b ≠ 0x10 → b ≠ 0x06 → exec (.rx b) s = .next (received s)

/-- Section 3.1 of 40_framecodec.md (R79), and the wire byte STX, here in START_PENDING, as RX of `0x02` (the model's
reading, notes/assumptions/9.md): STX after the start DLE is stored, and confirms the start: the payload begins behind it. -/
def Obligations.StxConfirmsTheStart : Prop :=
  ∀ s : State, s.fs = .startPending → s.rdIdx = 1 → 5 ≤ s.cfg.bufCap → s.inSink = false →
    ∃ m, StoredAt s 1 0x02 m ∧
      exec (.rx 0x02) s = .next { received s with fs := .inPayload, rdIdx := 2, stIdx := .pos 2, buf := m } ∧
      exec .stx s = .next { received s with fs := .inPayload, rdIdx := 2, stIdx := .pos 2, buf := m }

/-- R80: any byte but STX after the start DLE is a false start: the frame is abandoned and the byte consumed, a DLE
too. -/
def Obligations.FalseStartAbandonsTheFrame : Prop :=
  ∀ (s : State) (b : Byte), s.fs = .startPending → b ≠ 0x02 → s.inSink = false →
    exec (.rx b) s = .next (searching (received s))

/-- Section 3.2 of 40_framecodec.md (R83, R89), and the wire byte DLE as RX of `0x10` (the model's reading,
notes/assumptions/9.md): DLE in a payload is stored and may end the frame; if it fills the buffer, the frame is
abandoned. -/
def Obligations.DleInPayloadMayEndTheFrame : Prop :=
  ∀ s : State, s.fs = .inPayload → s.rdIdx < s.cfg.bufCap → s.inSink = false →
    ∃ m t, StoredAt s s.rdIdx 0x10 m ∧ exec (.rx 0x10) s = .next t ∧ exec .dle s = .next t ∧
      t = if s.rdIdx + 1 = s.cfg.bufCap then { searching (received s) with buf := m }
        else { received s with fs := .endPending, rdIdx := s.rdIdx + 1, enIdx := .tentative, buf := m }

/-- R84 with R89: any other byte in a payload joins it; if it fills the buffer, the frame is abandoned. -/
def Obligations.ByteInPayloadJoinsIt : Prop :=
  ∀ (s : State) (b : Byte), s.fs = .inPayload → b ≠ 0x10 → s.rdIdx < s.cfg.bufCap → s.inSink = false →
    ∃ m, StoredAt s s.rdIdx b m ∧
      exec (.rx b) s = .next
        (if s.rdIdx + 1 = s.cfg.bufCap then { searching (received s) with buf := m }
        else { received s with rdIdx := s.rdIdx + 1, buf := m })

/-- Section 3.2 of 40_framecodec.md (R85), and the wire byte ETX, here in END_PENDING, as RX of `0x03` (the model's
reading, notes/assumptions/9.md): ETX after a DLE confirms the end: the buffered DLE is the first byte past the payload, and
filling the buffer is no overflow. -/
def Obligations.EtxAfterDleConfirmsTheEnd : Prop :=
  ∀ s : State, s.fs = .endPending → 1 ≤ s.rdIdx → s.rdIdx < s.cfg.bufCap → s.inSink = false →
    ∃ m, StoredAt s s.rdIdx 0x03 m ∧
      exec (.rx 0x03) s = .next
        { received s with fs := .checksumWait, enIdx := .pos (s.rdIdx - 1), rdIdx := s.rdIdx + 1, buf := m } ∧
      exec .etx s = .next
        { received s with fs := .checksumWait, enIdx := .pos (s.rdIdx - 1), rdIdx := s.rdIdx + 1, buf := m }

/-- Section 3.2 of 40_framecodec.md (R86), and the wire byte DLE as RX of `0x10` (the model's reading,
notes/assumptions/9.md): a DLE after a DLE is not stored, and the end stays open. -/
def Obligations.StuffedDleIsNotStored : Prop :=
  ∀ s : State, s.fs = .endPending → s.inSink = false →
    exec (.rx 0x10) s = .next (received s) ∧ exec .dle s = .next (received s)

/-- R87: under `RESYNC_ON_DLE_STX`, STX after a DLE inside a frame restarts it empty; without it, STX is a false end like
any other byte. -/
def Obligations.StxAfterDleRestartsTheFrameUnderResync : Prop :=
  ∀ s : State, s.fs = .endPending → s.rdIdx < s.cfg.bufCap → 2 ≤ s.cfg.bufCap → s.inSink = false →
    (s.cfg.resyncOnDleStx = true →
      ∃ m, (∀ a, memRead m a = if a = 0 then 0x10 else if a = 1 then 0x02 else memRead s.buf a) ∧
        exec (.rx 0x02) s = .next
          { received s with fs := .inPayload, rdIdx := 2, stIdx := .pos 2, enIdx := .searching, buf := m }) ∧
    (s.cfg.resyncOnDleStx = false →
      ∃ m, StoredAt s s.rdIdx 0x02 m ∧
        exec (.rx 0x02) s = .next
          (if s.rdIdx + 1 = s.cfg.bufCap then { searching (received s) with buf := m }
          else { received s with fs := .inPayload, rdIdx := s.rdIdx + 1, enIdx := .searching, buf := m }))

/-- R88 with R89: any other byte after a DLE is a false end: it joins the payload, the DLE before it staying there; if it
fills the buffer, the frame is abandoned. -/
def Obligations.FalseEndKeepsDleAndByteInThePayload : Prop :=
  ∀ (s : State) (b : Byte), s.fs = .endPending → b ≠ 0x03 → b ≠ 0x10 →
    ¬(b = 0x02 ∧ s.cfg.resyncOnDleStx = true) → s.rdIdx < s.cfg.bufCap → s.inSink = false →
    ∃ m, StoredAt s s.rdIdx b m ∧
      exec (.rx b) s = .next
        (if s.rdIdx + 1 = s.cfg.bufCap then { searching (received s) with buf := m }
        else { received s with fs := .inPayload, rdIdx := s.rdIdx + 1, enIdx := .searching, buf := m })

/-- R90 and R91: the matching checksum byte is not stored; the ACK is sent, the payload dispatched after it, and the frame
reset, in this order. -/
def Obligations.MatchingChecksumAcknowledgesAndDispatches : Prop :=
  ∀ (s : State) (p : List Byte), s.fs = .checksumWait → PayloadIs s p → s.inSink = false →
    exec (.rx (checksum p)) s =
      .next (searching (dispatch p { received s with out := s.out ++ [.tx 0x06] }))

/-- Section 3.3 of 40_framecodec.md (R92): any other checksum byte discards the frame, with no event and no dispatch. -/
def Obligations.MismatchedChecksumDiscardsTheFrame : Prop :=
  ∀ (s : State) (p : List Byte) (b : Byte), s.fs = .checksumWait → PayloadIs s p → b ≠ checksum p →
    s.inSink = false → exec (.rx b) s = .next (searching (received s))

/-! ### Frames -/

/-- Section 4 of 40_framecodec.md (the round trip, its bound as the spec widens it, notes/assumptions/18.md), with FRAME as
RX of all its bytes in one step (the model's reading, notes/assumptions/10.md): the frame of a payload with no `0x10` byte that fits is acknowledged once and dispatched once, and only the frame span's bytes of
the buffer are written. -/
def Obligations.CleanFrameIsAcknowledgedAndDispatched : Prop :=
  ∀ (s : State) (p : List Byte), s.Inv → s.inSink = false → s.fs = .searchStart → 0x10 ∉ p →
    p.length + 4 ≤ s.cfg.bufCap →
    ∃ m, HoldsFrame s p m ∧
      exec (.frame p (checksum p)) s =
        .next { dispatch p { received s with out := s.out ++ [.tx 0x06] } with buf := m }

/-- Section 3.3 of 40_framecodec.md (a corrupted checksum, in one bit or more), with FRAME as RX of all its bytes in one
step (the model's reading, notes/assumptions/10.md), for payloads with no `0x10` byte, at length `BUF_CAP - 4` by the
spec's own boundary (notes/assumptions/18.md): such a frame with any other checksum byte leaves the output and the input
state as they were. -/
def Obligations.CorruptedFrameHasNoEffect : Prop :=
  ∀ (s : State) (p : List Byte) (cs : Byte), s.Inv → s.inSink = false → s.fs = .searchStart → 0x10 ∉ p →
    p.length + 4 ≤ s.cfg.bufCap → cs ≠ checksum p →
    ∃ m, HoldsFrame s p m ∧ exec (.frame p cs) s = .next { received s with buf := m }

/-- Section 2 of 70_reset_and_hazards.md (frame size), with FRAME as RX of all its bytes in one step (the model's reading,
notes/assumptions/10.md), for payloads with no `0x10` byte: a payload longer than
`BUF_CAP - 4` bytes is never acknowledged and never delivered. -/
def Obligations.OverlongFrameIsNeverDelivered : Prop :=
  ∀ (s : State) (p : List Byte) (cs : Byte), s.Inv → s.inSink = false → s.fs = .searchStart → 0x10 ∉ p →
    s.cfg.bufCap < p.length + 4 →
    ∃ t, exec (.frame p cs) s = .next t ∧ t.out = s.out ∧ t.buttons = s.buttons ∧ t.wheels = s.wheels

/-- Section 2 of 70_reset_and_hazards.md (a DLE just before a start DLE), with FRAME as RX of all its bytes in one step
(the model's reading, notes/assumptions/10.md), for payloads with no `0x10` byte: a stray DLE costs the frame after it. -/
def Obligations.StrayDleLosesTheNextFrame : Prop :=
  ∀ (s : State) (p : List Byte) (cs : Byte), s.Inv → s.inSink = false → s.fs = .searchStart → 0x10 ∉ p →
    ∃ t, runInstrs [.rx 0x10, .frame p cs] s = .next t ∧
      t.out = s.out ∧ t.buttons = s.buttons ∧ t.wheels = s.wheels

/-- Section 4 of 40_framecodec.md (the round trip's example) and section 2 of 70_reset_and_hazards.md, with FRAME as RX of
all its bytes in one step (the model's reading, notes/assumptions/10.md): the block's own
unescaped group frame is not recovered by its own decoder. -/
def Obligations.OwnGroupLightFrameIsNotRecovered : Prop :=
  ∀ s : State, s.Inv → s.inSink = false → s.fs = .searchStart →
    ∃ t, exec (.frame [0x68, 0x01, 0x10, 0x10] (checksum [0x68, 0x01, 0x10, 0x10])) s = .next t ∧
      t.out = s.out ∧ t.buttons = s.buttons ∧ t.wheels = s.wheels

/-- Section 4 of 40_framecodec.md (DLE runs): inside a payload the length of a run of DLEs does not matter. -/
def Obligations.DleRunLengthDoesNotMatter : Prop :=
  ∀ (s : State) (k : Nat) (x : Byte), s.fs = .inPayload → s.rdIdx + 1 < s.cfg.bufCap →
    runInstrs ((List.replicate (k + 1) 0x10 ++ [x]).map .rx) s = runInstrs [.rx 0x10, .rx x] s

/-- Section 4 of 40_framecodec.md (delivery count, RX's writes) and section 3 of 60_exceptions.md (order): what one RX
appends is nothing, or the ACK, or the ACK and then one notification of `0x38`, `0xFF` or `0x35`; and it appends only in
CHECKSUM_WAIT, which it then leaves. -/
def Obligations.OneByteAppendsAtMostAnAckAndANotification : Prop :=
  ∀ (b : Byte) (s t : State), exec (.rx b) s = .next t →
    t.out = s.out ∨
    (s.fs = .checksumWait ∧ t.fs = .searchStart ∧
      (t.out = s.out ++ [.tx 0x06] ∨
        ∃ n : Byte, (n = 0x38 ∨ n = 0xFF ∨ n = 0x35) ∧ t.out = s.out ++ [.tx 0x06, .notify n]))

/-- Section 3 of 43_controller.md (transmit and receive are independent): a frame sent before a received byte changes
nothing but the trace in front of what the byte appends. -/
def Obligations.SendingDoesNotDisturbReceiving : Prop :=
  ∀ (p : List Byte) (b : Byte) (s t : State), exec (.rx b) s = .next t →
    ∃ es u, t.out = s.out ++ es ∧ exec (.send p) s = .next u ∧
      exec (.rx b) u = .next { t with out := u.out ++ es }

/-! ### The dispatcher -/

/-- Section 1 of 41_dispatcher.md (routing): an inbound instruction is the dispatch of its payload (the model's reading of
a row standing alone, notes/assumptions/11.md). -/
def Obligations.InboundInstructionIsTheDispatchOfItsPayload : Prop :=
  ∀ (p : List Byte) (s : State), exec (decodeInbound p) s = .next { dispatch p s with result := .noResult }

/-- Sections 2 and 5 of 41_dispatcher.md (R102 to R104, R112), the row performed as a step of its own, with no ACK, framing
or phase change (the model's reading, notes/assumptions/11.md): each notification command appends one notification of its
value and does nothing else, and a dropped payload has no effect. -/
def Obligations.NotificationsNotifyOnceAndDropsDoNothing : Prop :=
  ∀ (p : List Byte) (s : State),
    exec (.notify7938 p) s = .next { s with out := s.out ++ [.notify 0x38], result := .noResult } ∧
    exec (.notify79FF p) s = .next { s with out := s.out ++ [.notify 0xFF], result := .noResult } ∧
    exec (.notify35 p) s = .next { s with out := s.out ++ [.notify 0x35], result := .noResult } ∧
    exec (.drop79 p) s = .next { s with result := .noResult } ∧
    exec (.drop p) s = .next { s with result := .noResult }

/-- Section 3 of 41_dispatcher.md and section 1 of 42_polling.md (R105, R106, R116), the row performed as a step of its own
(the model's reading, notes/assumptions/11.md): a button command sets the level of every button with its id, and changes nothing else. -/
def Obligations.ButtonCommandsSetEveryMatchingLevel : Prop :=
  ∀ (id : Byte) (extra : List Byte) (s : State),
    exec (.btnSet id extra) s = .next (leveledTo id true s) ∧
    exec (.btnClr id extra) s = .next (leveledTo id false s)

/-- Section 4 of 41_dispatcher.md and section 1 of 42_polling.md (R108 to R111, R117), under both values of each switch, the
row performed as a step of its own (the model's reading, notes/assumptions/11.md): a wheel command turns every wheel with its selector, and
changes nothing else. -/
def Obligations.WheelCommandsTurnEveryMatchingWheel : Prop :=
  ∀ (a : Byte) (extra : List Byte) (s : State),
    exec (.whl40Pos a extra) s = .next (turnedBy 0x40 (turnDelta s.cfg false a) s) ∧
    exec (.whl40Neg a extra) s = .next (turnedBy 0x40 (turnDelta s.cfg true a) s) ∧
    exec (.whl50Pos a extra) s = .next (turnedBy 0x50 (turnDelta s.cfg false a) s) ∧
    exec (.whl50Neg a extra) s = .next (turnedBy 0x50 (turnDelta s.cfg true a) s)

/-! ### Polling and reads -/

/-- R119: TICK moves `pending` to `committed` if they differ, zeroes `pending`, and changes nothing else but `phase`. -/
def Obligations.TickLatchesEveryWheel : Prop :=
  ∀ s : State, s.inSink = false →
    exec .tick s = .next
      { s with
        phase := .run
        wheels := s.wheels.map fun w =>
          { w with committed := if w.pending = w.committed then w.committed else w.pending, pending := 0 }
        result := .noResult }

/-- Section 4 of 42_polling.md (decay), the turn performed as a step of its own (the model's reading,
notes/assumptions/11.md): a turn shows after the first TICK, and is gone after the second. -/
def Obligations.TurnShowsForExactlyOneTick : Prop :=
  ∀ (fifty neg : Bool) (a : Byte) (s : State) (i : Nat) (w : Wheel), s.cfg.Wf → s.inSink = false →
    s.wheels[i]? = some w → w.sel = turnSelector fifty → w.pending = 0 →
    ∃ t u wt wu, runInstrs [turnInstr fifty neg a, .tick] s = .next t ∧ exec .tick t = .next u ∧
      t.wheels[i]? = some wt ∧ wt.committed = turnDelta s.cfg neg a ∧
      u.wheels[i]? = some wu ∧ wu.committed = 0

/-- Section 4 of 42_polling.md (several turns in one tick), each turn performed as a step of its own (the model's reading,
notes/assumptions/11.md): the last turn alone counts, or, under `WHEEL_ACCUMULATE`, the
wrapped sum does. -/
def Obligations.SeveralTurnsInOneTickCollapseOrAccumulate : Prop :=
  ∀ (fifty : Bool) (turns : List (Bool × Byte)) (s : State) (i : Nat) (w : Wheel), s.cfg.Wf → s.inSink = false →
    s.wheels[i]? = some w → w.sel = turnSelector fifty → DeltaFits s.cfg.wheelW w.pending →
    ∃ t wt, runInstrs (turns.map (fun x => turnInstr fifty x.1 x.2) ++ [.tick]) s = .next t ∧
      t.wheels[i]? = some wt ∧ wt.pending = 0 ∧
      (s.cfg.wheelAccumulate = false → ∀ x, turns.getLast? = some x → wt.committed = turnDelta s.cfg x.1 x.2) ∧
      (s.cfg.wheelAccumulate = true →
        wt.committed = wrapDelta s.cfg.wheelW (w.pending + (turns.map fun x => turnDelta s.cfg x.1 x.2).sum))

/-- R122 and R123: the wheel reads answer from `committed` and change nothing else; a handle that names no wheel is
refused. -/
def Obligations.WheelReadsAnswerFromCommitted : Prop :=
  ∀ (s : State) (i : Nat),
    (∀ w, s.wheels[i]? = some w →
      exec (.readDelta i) s = .next { s with result := .delta w.committed } ∧
      exec (.wasTurned i) s = .next { s with result := .turned (decide (w.committed ≠ 0)) }) ∧
    (s.wheels.length ≤ i →
      exec (.readDelta i) s = .next (refusedWith .readUnregistered s) ∧
      exec (.wasTurned i) s = .next (refusedWith .readUnregistered s))

/-- Section 3 of 42_polling.md (READ_LEVEL): the read answers the button's level and changes nothing else; a handle that
names no button is refused. -/
def Obligations.ButtonReadAnswersTheLevel : Prop :=
  ∀ (s : State) (i : Nat),
    (∀ b, s.buttons[i]? = some b → exec (.readLevel i) s = .next { s with result := .level b.level }) ∧
    (s.buttons.length ≤ i → exec (.readLevel i) s = .next (refusedWith .readUnregistered s))

/-! ### The controller -/

/-- Section 1 of 43_controller.md and section 4 of 10_state.md: RESET puts the block in its initial state; the refusal
mark, and the buffer as the model reads 'any value' (notes/assumptions/4.md), stay. -/
def Obligations.ResetStartsANewLifetime : Prop :=
  ∀ s : State, s.inSink = false →
    exec .reset s = .next
      { searching s with buttons := [], wheels := [], phase := .setup, out := [], result := .noResult }

/-- R129: in the registration window a button is appended with level `false` if there is room, and otherwise the result is
FAIL and nothing changes; outside the window it is refused. -/
def Obligations.RegisterButtonAppendsFailsOrIsRefused : Prop :=
  ∀ (id : Byte) (s : State), s.inSink = false →
    (s.phase = .setup → s.buttons.length ≠ s.cfg.maxButtons →
      exec (.regButton id) s = .next
        { s with buttons := s.buttons ++ [{ id := id, level := false }], result := .ok s.buttons.length }) ∧
    (s.phase = .setup → s.buttons.length = s.cfg.maxButtons →
      exec (.regButton id) s = .next { s with result := .fail }) ∧
    (s.phase = .run → exec (.regButton id) s = .next (refusedWith .registerAfterSetup s))

/-- R130: the same for a wheel, whose selector must be `0x40` or `0x50`; its deltas start at 0. -/
def Obligations.RegisterWheelAppendsFailsOrIsRefused : Prop :=
  ∀ (sel : Byte) (s : State), s.inSink = false →
    (s.phase = .setup → (sel = 0x40 ∨ sel = 0x50) → s.wheels.length ≠ s.cfg.maxWheels →
      exec (.regWheel sel) s = .next
        { s with
          wheels := s.wheels ++ [{ sel := sel, pending := 0, committed := 0 }]
          result := .ok s.wheels.length }) ∧
    (s.phase = .setup → (sel = 0x40 ∨ sel = 0x50) → s.wheels.length = s.cfg.maxWheels →
      exec (.regWheel sel) s = .next { s with result := .fail }) ∧
    (s.phase = .setup → sel ≠ 0x40 → sel ≠ 0x50 →
      exec (.regWheel sel) s = .next (refusedWith .badWheelSelector s)) ∧
    (s.phase = .run → exec (.regWheel sel) s = .next (refusedWith .registerAfterSetup s))

/-- R73 and R133: SEND appends the frame of its payload to the trace, `len(p) + 5` bytes, unescaped, and changes nothing
else. -/
def Obligations.SendWritesTheEncodedFrame : Prop :=
  ∀ (p : List Byte) (s : State),
    exec (.send p) s = .next (sent p s) ∧ (sent p s).out.length = s.out.length + (p.length + 5)

/-- Section 3 of 43_controller.md (R134, R135), and the outbound rows as SEND of their payloads (the model's reading,
notes/assumptions/12.md): both forms of SET_ILLUMINATION send `[0x60, b]`, and both forms of SET_HIGHLIGHT `[0x64, b, 0x01]`. -/
def Obligations.BrightnessCommandsSendTheirPayloads : Prop :=
  ∀ (b : Byte) (s : State),
    exec (.setIllumination b) s = .next (sent [0x60, b] s) ∧
    exec (.setIlluminationOp b) s = .next (sent [0x60, b] s) ∧
    exec (.setHighlight b) s = .next (sent [0x64, b, 0x01] s) ∧
    exec (.setHighlightOp b) s = .next (sent [0x64, b, 0x01] s)

/-- Section 3 of 43_controller.md (R136), and the outbound rows as SEND of their payloads (the model's reading,
notes/assumptions/12.md): light `0x10` is sent in the group form and any other light in the single form, from the outbound payloads and
from the interface op; a byte that is no Boolean is refused. -/
def Obligations.SetLightSendsTheGroupOrSingleForm : Prop :=
  ∀ s : State,
    (∀ on : Bool, exec (.setLightGroup on) s = .next (sent [0x68, if on then 0x01 else 0x00, 0x10, 0x10] s)) ∧
    (∀ (on : Bool) (id : Byte), id ≠ 0x10 →
      exec (.setLight on id) s = .next (sent [0x68, if on then 0x01 else 0x00, id] s)) ∧
    (∀ id on : Byte, on = 0x00 ∨ on = 0x01 →
      exec (.setLightOp id on) s =
        .next (sent (if id = 0x10 then [0x68, on, 0x10, 0x10] else [0x68, on, id]) s)) ∧
    (∀ id on : Byte, on ≠ 0x00 → on ≠ 0x01 →
      exec (.setLightOp id on) s = .next (refusedWith .badBooleanOperand s))

/-- Section 3 of 43_controller.md (R137), and the outbound row as SEND of its payload (the model's reading,
notes/assumptions/12.md): both forms of ENABLE_KEYS send `[0x70, 0x12]`, that is `10 02 70 12 10 03 A7`. -/
def Obligations.EnableKeysSendsItsFrame : Prop :=
  ∀ s : State,
    exec .enableKeys s = .next (sent [0x70, 0x12] s) ∧ exec .enableKeysOp s = .next (sent [0x70, 0x12] s) ∧
    (sent [0x70, 0x12] s).out =
      s.out ++ [.tx 0x10, .tx 0x02, .tx 0x70, .tx 0x12, .tx 0x10, .tx 0x03, .tx 0xA7]

/-- Section 3 of 43_controller.md (R138), and the outbound row as SEND of its payload (the model's reading,
notes/assumptions/12.md): both forms of SHUTDOWN send `[0x70, 0x11]`; nothing else in the block changes. -/
def Obligations.ShutdownOnlySendsItsFrame : Prop :=
  ∀ s : State, exec .shutdown s = .next (sent [0x70, 0x11] s) ∧ exec .shutdownOp s = .next (sent [0x70, 0x11] s)

/-- R145: in a good state UPDATE completes; it performs the RX of each byte in order, and
then TICK. -/
def Obligations.UpdateReceivesEveryByteThenTicks : Prop :=
  ∀ (bs : List Byte) (s : State), s.Inv → s.inSink = false →
    ∃ t u, runInstrs (bs.map .rx) s = .next t ∧ exec .tick t = .next u ∧ exec (.update bs) s = .next u

/-- R143: the reserved op is refused. -/
def Obligations.ReservedOpIsRefused : Prop :=
  ∀ s : State, exec .reservedF s = .next (refusedWith .reservedOperation s)

/-- Section 3 of 60_exceptions.md (re-entrancy): issued from inside the notification sink, every operation that receives,
ticks, resets or registers is refused. -/
def Obligations.ReentrantOperationsAreRefused : Prop :=
  ∀ (i : Instr) (s : State), s.inSink = true →
    (receives i = true ∨ i = .tick ∨ i = .reset ∨ (∃ id, i = .regButton id) ∨ ∃ sel, i = .regWheel sel) →
    exec i s = .next (refusedWith .reentrantOperation s)

/-! ### The frame buffer -/

/-- Section 1 of 20_memory.md (buffer reads see only the current frame): what the buffer held at reset, and what earlier
frames left in it, is never observed. A run from a good state and a run of the same instructions from a state with other
such bytes both complete, and differ in nothing else at the end. -/
def Obligations.UnstoredBufferBytesAreNeverObserved : Prop :=
  ∀ (is : List Instr) (s t : State), s.Inv → SameButUnstoredBytes s t →
    ∃ s' t', runInstrs is s = .next s' ∧ runInstrs is t = .next t' ∧ SameButUnstoredBytes s' t'
end

