-- ==== Sys2Proof/Laws/Buffer.lean ====
section
/-! SUPPORT. The laws of the frame buffer: read after write, the canonical form, and what a range read answers. -/

namespace Sys2Proof.Machine

@[simp] theorem memRead_blank (i : Nat) : memRead Memory.blank i = unlistedByte := rfl

/-! ### Read after write -/

theorem memRead_memErase (m : Memory) (i k : Nat) :
    memRead (memErase m i) k = if k = i then unlistedByte else memRead m k := by
  induction m with
  | nil => simp [memErase, memRead]
  | cons c m ih =>
    obtain ⟨j, w⟩ := c
    simp only [memErase] at ih
    by_cases hj : j = i
    · subst hj
      simp only [memErase, List.filter_cons, bne_self_eq_false, Bool.false_eq_true, if_false, ih, memRead]
      split_ifs with h1 h2 <;> first | rfl | exact absurd h2.symm h1
    · simp only [memErase, List.filter_cons, bne_iff_ne.2 hj, if_true, memRead, ih]
      split_ifs with h1 h2 <;> first | rfl | exact absurd (h1.trans h2) hj

theorem memRead_memInsert (m : Memory) (i k : Nat) (v : Byte) (h : ∀ c ∈ m, c.1 ≠ i) :
    memRead (memInsert m i v) k = if k = i then v else memRead m k := by
  induction m with
  | nil => simp [memInsert, memRead, eq_comm]
  | cons c m ih =>
    obtain ⟨j, w⟩ := c
    have hj : j ≠ i := h _ List.mem_cons_self
    have ih := ih fun c hc => h c (List.mem_cons_of_mem _ hc)
    unfold memInsert
    split_ifs with h1 h2 h2
    · subst h2; simp [memRead, hj, ih]
    · simp [memRead, ih, h2]
    · simp [memRead, h2]
    · simp [memRead, Ne.symm h2]

theorem mem_memErase {m : Memory} {i : Nat} {c : Host.Cell} : c ∈ memErase m i ↔ c ∈ m ∧ c.1 ≠ i := by
  simp [memErase]

/-- A read after a write, both cases at once, whatever the form of the buffer. -/
theorem memRead_memWrite (m : Memory) (i k : Nat) (v : Byte) :
    memRead (memWrite m i v) k = if k = i then v else memRead m k := by
  unfold memWrite
  split_ifs with hv hk hk
  · simp [memRead_memErase, hk, hv]
  · simp [memRead_memErase, hk]
  · simp [memRead_memInsert _ _ _ _ fun c hc => (mem_memErase.1 hc).2, hk]
  · simp [memRead_memInsert _ _ _ _ fun c hc => (mem_memErase.1 hc).2, memRead_memErase, hk]

@[simp] theorem memRead_memWrite_same (m : Memory) (i : Nat) (v : Byte) : memRead (memWrite m i v) i = v := by
  simp [memRead_memWrite]

theorem memRead_memWrite_ne (m : Memory) {i k : Nat} (v : Byte) (h : k ≠ i) :
    memRead (memWrite m i v) k = memRead m k := by
  simp [memRead_memWrite, h]

/-! ### The canonical form -/

theorem mem_memInsert {m : Memory} {i : Nat} {v : Byte} {c : Host.Cell} (h : c ∈ memInsert m i v) :
    c = (i, v) ∨ c ∈ m := by
  induction m with
  | nil => simpa [memInsert] using h
  | cons d m ih =>
    obtain ⟨j, w⟩ := d
    unfold memInsert at h
    split_ifs at h
    · rcases List.mem_cons.1 h with h | h
      · exact .inr (h ▸ List.mem_cons_self)
      · exact (ih h).imp_right (List.mem_cons_of_mem _)
    · exact (List.mem_cons.1 h).imp_right id

/-- Every cell of a written buffer is the new one, with a byte worth listing, or an old one. -/
theorem mem_memWrite {m : Memory} {i : Nat} {v : Byte} {c : Host.Cell} (h : c ∈ memWrite m i v) :
    (c = (i, v) ∧ v ≠ unlistedByte) ∨ c ∈ m := by
  unfold memWrite at h
  split_ifs at h with hv
  · exact .inr (mem_memErase.1 h).1
  · rcases mem_memInsert h with h | h
    · exact .inl ⟨h, hv⟩
    · exact .inr (mem_memErase.1 h).1

theorem memInsert_rising {m : Memory} {i : Nat} (v : Byte) (h : m.Pairwise fun c d => c.1 < d.1)
    (hi : ∀ c ∈ m, c.1 ≠ i) : (memInsert m i v).Pairwise fun c d => c.1 < d.1 := by
  induction m with
  | nil => simp [memInsert]
  | cons d m ih =>
    obtain ⟨j, w⟩ := d
    obtain ⟨hd, hm⟩ := List.pairwise_cons.1 h
    have hj : j ≠ i := hi _ List.mem_cons_self
    unfold memInsert
    split_ifs with h1
    · refine List.pairwise_cons.2 ⟨fun c hc => ?_, ih hm fun c hc => hi c (List.mem_cons_of_mem _ hc)⟩
      rcases mem_memInsert hc with rfl | hc
      · exact h1
      · exact hd c hc
    · refine List.pairwise_cons.2 ⟨fun c hc => ?_, h⟩
      have hij : i < j := by omega
      rcases List.mem_cons.1 hc with rfl | hc
      · exact hij
      · exact lt_trans hij (hd c hc)

/-- A write keeps the canonical form. -/
theorem memWrite_wf {m : Memory} (i : Nat) (v : Byte) (h : Memory.wf m) : Memory.wf (memWrite m i v) := by
  refine ⟨?_, fun c hc => ?_⟩
  · have he : (memErase m i).Pairwise fun c d => c.1 < d.1 := h.1.filter _
    unfold memWrite
    split_ifs
    · exact he
    · exact memInsert_rising v he fun c hc => (mem_memErase.1 hc).2
  · rcases mem_memWrite hc with ⟨rfl, hv⟩ | hc
    · exact hv
    · exact h.2 c hc

/-- A listed cell is what its index holds. -/
theorem memRead_of_mem {m : Memory} {c : Host.Cell} (h : m.Pairwise fun c d => c.1 < d.1) (hc : c ∈ m) :
    memRead m c.1 = c.2 := by
  induction m with
  | nil => cases hc
  | cons d m ih =>
    obtain ⟨hd, hm⟩ := List.pairwise_cons.1 h
    rcases List.mem_cons.1 hc with rfl | hc
    · simp [memRead]
    · simp [memRead, Nat.ne_of_lt (hd c hc), ih hm hc]

/-- An index that holds another byte than an unlisted one has its cell. -/
theorem mem_of_memRead {m : Memory} {i : Nat} (h : memRead m i ≠ unlistedByte) : (i, memRead m i) ∈ m := by
  induction m with
  | nil => exact absurd rfl h
  | cons d m ih =>
    obtain ⟨j, w⟩ := d
    by_cases hj : j = i
    · subst hj; simp [memRead]
    · simp only [memRead, if_neg hj] at h ⊢
      exact List.mem_cons_of_mem _ (ih h)

/-- Buffers in canonical form that hold the same bytes are the same list. -/
theorem memory_ext {m m' : Memory} (h : Memory.wf m) (h' : Memory.wf m') (he : ∀ i, memRead m i = memRead m' i) :
    m = m' := by
  have sub : ∀ {a b : Memory}, Memory.wf a → (∀ i, memRead a i = memRead b i) → ∀ c ∈ a, c ∈ b :=
    fun {a b} ha hab c hc => by
      have hr := memRead_of_mem ha.1 hc
      have hm := mem_of_memRead (m := b) (i := c.1) (by rw [← hab, hr]; exact ha.2 c hc)
      rwa [← hab, hr] at hm
  have nd : ∀ {a : Memory}, Memory.wf a → a.Nodup := fun ha => ha.1.imp fun hlt heq => by simp [heq] at hlt
  exact List.Perm.eq_of_pairwise (fun _ _ _ _ h1 h2 => absurd h1 (lt_asymm h2)) h.1 h'.1
    ((List.perm_ext_iff_of_nodup (nd h) (nd h')).2 fun c => ⟨sub h he c, sub h' (fun i => (he i).symm) c⟩)

/-- The canonical form at reset. -/
theorem reset_buf_wf : Memory.wf State.reset.buf := by decide

/-- A write inside a bound keeps every cell inside it. -/
theorem memWrite_bounded {m : Memory} {i n : Nat} (v : Byte) (hi : i < n) (h : ∀ c ∈ m, c.1 < n) :
    ∀ c ∈ memWrite m i v, c.1 < n := fun c hc => by
  rcases mem_memWrite hc with ⟨rfl, -⟩ | hc
  · exact hi
  · exact h c hc

/-! ### Range reads -/

@[simp] theorem memReadRange_length (m : Memory) (i n : Nat) : (memReadRange m i n).length = n := by
  induction n generalizing i with
  | zero => rfl
  | succ n ih => simp [memReadRange, ih]

theorem memReadRange_getElem? (m : Memory) {i n k : Nat} (h : k < n) :
    (memReadRange m i n)[k]? = some (memRead m (i + k)) := by
  induction n generalizing i k with
  | zero => omega
  | succ n ih =>
    cases k with
    | zero => rfl
    | succ k => simpa [memReadRange, Nat.add_assoc, Nat.add_comm 1 k] using ih (i := i + 1) (k := k) (by omega)

/-- A range read is the one list of its length with these bytes. -/
theorem memReadRange_eq_iff {m : Memory} {i n : Nat} {p : List Byte} :
    memReadRange m i n = p ↔ p.length = n ∧ ∀ k, k < n → p[k]? = some (memRead m (i + k)) := by
  constructor
  · rintro rfl
    exact ⟨memReadRange_length m i n, fun k hk => memReadRange_getElem? m hk⟩
  · rintro ⟨hl, hk⟩
    refine List.ext_getElem? fun k => ?_
    by_cases h : k < n
    · rw [hk k h, memReadRange_getElem? m h]
    · rw [List.getElem?_eq_none (by simpa using h), List.getElem?_eq_none (by omega)]

/-- Two buffers that agree on a range give the same range read. -/
theorem memReadRange_congr {m m' : Memory} {i n : Nat} (h : ∀ k, k < n → memRead m' (i + k) = memRead m (i + k)) :
    memReadRange m' i n = memReadRange m i n :=
  memReadRange_eq_iff.2 ⟨memReadRange_length m i n, fun k hk => by rw [memReadRange_getElem? m hk, h k hk]⟩

end Sys2Proof.Machine
end

