-- ==== Sys2Proof/Laws/Decode.lean ====
section
/-! SUPPORT. The laws of the operand decoders: a byte, a byte list and an on/off byte read back. -/

namespace Sys2Proof

@[simp] theorem decodeByte_toNat (b : Byte) : decodeByte b.toNat = .ok b := by
  simp [decodeByte, b.isLt]

/-- A byte operand that decodes is the number it was. -/
theorem toNat_of_decodeByte {n : Nat} {b : Byte} (h : decodeByte n = .ok b) : b.toNat = n := by
  unfold decodeByte at h
  split_ifs at h with hn
  cases h
  simpa using hn

@[simp] theorem decodeBytes_map_toNat (bs : List Byte) : decodeBytes (bs.map BitVec.toNat) = .ok bs := by
  induction bs with
  | nil => rfl
  | cons b bs ih => simp [decodeBytes, ih]

/-- A byte list that decodes is the list of numbers it was. -/
theorem map_toNat_of_decodeBytes {ns : List Nat} {bs : List Byte} (h : decodeBytes ns = .ok bs) :
    bs.map BitVec.toNat = ns := by
  induction ns generalizing bs with
  | nil => cases h; rfl
  | cons n ns ih =>
    unfold decodeBytes at h
    split at h
    · rename_i b cs hb hbs
      cases h
      simp [toNat_of_decodeByte hb, ih hbs]
    · cases h
    · cases h

@[simp] theorem decodeOnOff_encodeOnOff (on : Bool) : decodeOnOff (encodeOnOff on) = .ok on := by
  cases on <;> decide

/-- An on/off byte that decodes is the byte it was. -/
theorem encodeOnOff_of_decodeOnOff {s : Byte} {on : Bool} (h : decodeOnOff s = .ok on) : encodeOnOff on = s := by
  unfold decodeOnOff at h
  split_ifs at h with h1 h2 <;> cases h <;> simp_all [encodeOnOff]

end Sys2Proof
end

