-- ==== Sys2Proof/Laws/State.lean ====
section
/-! SUPPORT. What each update of the state does to each field, so that no later proof unfolds a record update. -/

namespace Sys2Proof.Machine

/-! ### returning -/

@[simp] theorem returning_fs (r : OpResult) (s : State) : (returning r s).fs = s.fs := rfl
@[simp] theorem returning_rdIdx (r : OpResult) (s : State) : (returning r s).rdIdx = s.rdIdx := rfl
@[simp] theorem returning_stIdx (r : OpResult) (s : State) : (returning r s).stIdx = s.stIdx := rfl
@[simp] theorem returning_enIdx (r : OpResult) (s : State) : (returning r s).enIdx = s.enIdx := rfl
@[simp] theorem returning_buf (r : OpResult) (s : State) : (returning r s).buf = s.buf := rfl
@[simp] theorem returning_buttons (r : OpResult) (s : State) : (returning r s).buttons = s.buttons := rfl
@[simp] theorem returning_wheels (r : OpResult) (s : State) : (returning r s).wheels = s.wheels := rfl
@[simp] theorem returning_phase (r : OpResult) (s : State) : (returning r s).phase = s.phase := rfl
@[simp] theorem returning_out (r : OpResult) (s : State) : (returning r s).out = s.out := rfl
@[simp] theorem returning_refused (r : OpResult) (s : State) : (returning r s).refused = s.refused := rfl
@[simp] theorem returning_cfg (r : OpResult) (s : State) : (returning r s).cfg = s.cfg := rfl
@[simp] theorem returning_result (r : OpResult) (s : State) : (returning r s).result = r := rfl
@[simp] theorem returning_input (r : OpResult) (s : State) : (returning r s).input = s.input := rfl
@[simp] theorem returning_inSink (r : OpResult) (s : State) : (returning r s).inSink = s.inSink := rfl

/-! ### emit -/

@[simp] theorem emit_fs (e : Event) (s : State) : (emit e s).fs = s.fs := rfl
@[simp] theorem emit_rdIdx (e : Event) (s : State) : (emit e s).rdIdx = s.rdIdx := rfl
@[simp] theorem emit_stIdx (e : Event) (s : State) : (emit e s).stIdx = s.stIdx := rfl
@[simp] theorem emit_enIdx (e : Event) (s : State) : (emit e s).enIdx = s.enIdx := rfl
@[simp] theorem emit_buf (e : Event) (s : State) : (emit e s).buf = s.buf := rfl
@[simp] theorem emit_buttons (e : Event) (s : State) : (emit e s).buttons = s.buttons := rfl
@[simp] theorem emit_wheels (e : Event) (s : State) : (emit e s).wheels = s.wheels := rfl
@[simp] theorem emit_phase (e : Event) (s : State) : (emit e s).phase = s.phase := rfl
@[simp] theorem emit_out (e : Event) (s : State) : (emit e s).out = s.out ++ [e] := rfl
@[simp] theorem emit_refused (e : Event) (s : State) : (emit e s).refused = s.refused := rfl
@[simp] theorem emit_cfg (e : Event) (s : State) : (emit e s).cfg = s.cfg := rfl
@[simp] theorem emit_result (e : Event) (s : State) : (emit e s).result = s.result := rfl
@[simp] theorem emit_input (e : Event) (s : State) : (emit e s).input = s.input := rfl
@[simp] theorem emit_inSink (e : Event) (s : State) : (emit e s).inSink = s.inSink := rfl

/-! ### refuse -/

@[simp] theorem refuse_fs (r : RefuseReason) (s : State) : (refuse r s).fs = s.fs := rfl
@[simp] theorem refuse_rdIdx (r : RefuseReason) (s : State) : (refuse r s).rdIdx = s.rdIdx := rfl
@[simp] theorem refuse_stIdx (r : RefuseReason) (s : State) : (refuse r s).stIdx = s.stIdx := rfl
@[simp] theorem refuse_enIdx (r : RefuseReason) (s : State) : (refuse r s).enIdx = s.enIdx := rfl
@[simp] theorem refuse_buf (r : RefuseReason) (s : State) : (refuse r s).buf = s.buf := rfl
@[simp] theorem refuse_buttons (r : RefuseReason) (s : State) : (refuse r s).buttons = s.buttons := rfl
@[simp] theorem refuse_wheels (r : RefuseReason) (s : State) : (refuse r s).wheels = s.wheels := rfl
@[simp] theorem refuse_phase (r : RefuseReason) (s : State) : (refuse r s).phase = s.phase := rfl
@[simp] theorem refuse_out (r : RefuseReason) (s : State) : (refuse r s).out = s.out := rfl
@[simp] theorem refuse_refused (r : RefuseReason) (s : State) : (refuse r s).refused = true := rfl
@[simp] theorem refuse_cfg (r : RefuseReason) (s : State) : (refuse r s).cfg = s.cfg := rfl
@[simp] theorem refuse_result (r : RefuseReason) (s : State) : (refuse r s).result = .refusedFor r := rfl
@[simp] theorem refuse_input (r : RefuseReason) (s : State) : (refuse r s).input = s.input := rfl
@[simp] theorem refuse_inSink (r : RefuseReason) (s : State) : (refuse r s).inSink = s.inSink := rfl

/-! ### startRun -/

@[simp] theorem startRun_fs (s : State) : (startRun s).fs = s.fs := rfl
@[simp] theorem startRun_rdIdx (s : State) : (startRun s).rdIdx = s.rdIdx := rfl
@[simp] theorem startRun_stIdx (s : State) : (startRun s).stIdx = s.stIdx := rfl
@[simp] theorem startRun_enIdx (s : State) : (startRun s).enIdx = s.enIdx := rfl
@[simp] theorem startRun_buf (s : State) : (startRun s).buf = s.buf := rfl
@[simp] theorem startRun_buttons (s : State) : (startRun s).buttons = s.buttons := rfl
@[simp] theorem startRun_wheels (s : State) : (startRun s).wheels = s.wheels := rfl
@[simp] theorem startRun_phase (s : State) : (startRun s).phase = .run := rfl
@[simp] theorem startRun_out (s : State) : (startRun s).out = s.out := rfl
@[simp] theorem startRun_refused (s : State) : (startRun s).refused = s.refused := rfl
@[simp] theorem startRun_cfg (s : State) : (startRun s).cfg = s.cfg := rfl
@[simp] theorem startRun_result (s : State) : (startRun s).result = s.result := rfl
@[simp] theorem startRun_input (s : State) : (startRun s).input = s.input := rfl
@[simp] theorem startRun_inSink (s : State) : (startRun s).inSink = s.inSink := rfl

/-! ### resetFrame -/

@[simp] theorem resetFrame_fs (s : State) : (resetFrame s).fs = .searchStart := rfl
@[simp] theorem resetFrame_rdIdx (s : State) : (resetFrame s).rdIdx = 0 := rfl
@[simp] theorem resetFrame_stIdx (s : State) : (resetFrame s).stIdx = .searching := rfl
@[simp] theorem resetFrame_enIdx (s : State) : (resetFrame s).enIdx = .searching := rfl
@[simp] theorem resetFrame_buf (s : State) : (resetFrame s).buf = s.buf := rfl
@[simp] theorem resetFrame_buttons (s : State) : (resetFrame s).buttons = s.buttons := rfl
@[simp] theorem resetFrame_wheels (s : State) : (resetFrame s).wheels = s.wheels := rfl
@[simp] theorem resetFrame_phase (s : State) : (resetFrame s).phase = s.phase := rfl
@[simp] theorem resetFrame_out (s : State) : (resetFrame s).out = s.out := rfl
@[simp] theorem resetFrame_refused (s : State) : (resetFrame s).refused = s.refused := rfl
@[simp] theorem resetFrame_cfg (s : State) : (resetFrame s).cfg = s.cfg := rfl
@[simp] theorem resetFrame_result (s : State) : (resetFrame s).result = s.result := rfl
@[simp] theorem resetFrame_input (s : State) : (resetFrame s).input = s.input := rfl
@[simp] theorem resetFrame_inSink (s : State) : (resetFrame s).inSink = s.inSink := rfl

/-! ### transmit -/

@[simp] theorem transmit_fs (p : List Byte) (s : State) : (transmit p s).fs = s.fs := rfl
@[simp] theorem transmit_rdIdx (p : List Byte) (s : State) : (transmit p s).rdIdx = s.rdIdx := rfl
@[simp] theorem transmit_stIdx (p : List Byte) (s : State) : (transmit p s).stIdx = s.stIdx := rfl
@[simp] theorem transmit_enIdx (p : List Byte) (s : State) : (transmit p s).enIdx = s.enIdx := rfl
@[simp] theorem transmit_buf (p : List Byte) (s : State) : (transmit p s).buf = s.buf := rfl
@[simp] theorem transmit_buttons (p : List Byte) (s : State) : (transmit p s).buttons = s.buttons := rfl
@[simp] theorem transmit_wheels (p : List Byte) (s : State) : (transmit p s).wheels = s.wheels := rfl
@[simp] theorem transmit_phase (p : List Byte) (s : State) : (transmit p s).phase = s.phase := rfl
@[simp] theorem transmit_out (p : List Byte) (s : State) : (transmit p s).out = s.out ++ (encodeFrame p).map .tx := rfl
@[simp] theorem transmit_refused (p : List Byte) (s : State) : (transmit p s).refused = s.refused := rfl
@[simp] theorem transmit_cfg (p : List Byte) (s : State) : (transmit p s).cfg = s.cfg := rfl
@[simp] theorem transmit_result (p : List Byte) (s : State) : (transmit p s).result = s.result := rfl
@[simp] theorem transmit_input (p : List Byte) (s : State) : (transmit p s).input = s.input := rfl
@[simp] theorem transmit_inSink (p : List Byte) (s : State) : (transmit p s).inSink = s.inSink := rfl

/-! ### buttonUpdate -/

@[simp] theorem buttonUpdate_fs (id : Byte) (v : Bool) (s : State) : (buttonUpdate id v s).fs = s.fs := rfl
@[simp] theorem buttonUpdate_rdIdx (id : Byte) (v : Bool) (s : State) : (buttonUpdate id v s).rdIdx = s.rdIdx := rfl
@[simp] theorem buttonUpdate_stIdx (id : Byte) (v : Bool) (s : State) : (buttonUpdate id v s).stIdx = s.stIdx := rfl
@[simp] theorem buttonUpdate_enIdx (id : Byte) (v : Bool) (s : State) : (buttonUpdate id v s).enIdx = s.enIdx := rfl
@[simp] theorem buttonUpdate_buf (id : Byte) (v : Bool) (s : State) : (buttonUpdate id v s).buf = s.buf := rfl
@[simp] theorem buttonUpdate_buttons (id : Byte) (v : Bool) (s : State) : (buttonUpdate id v s).buttons = s.buttons.map fun b => if b.id = id then { b with level := v } else b := rfl
@[simp] theorem buttonUpdate_wheels (id : Byte) (v : Bool) (s : State) : (buttonUpdate id v s).wheels = s.wheels := rfl
@[simp] theorem buttonUpdate_phase (id : Byte) (v : Bool) (s : State) : (buttonUpdate id v s).phase = s.phase := rfl
@[simp] theorem buttonUpdate_out (id : Byte) (v : Bool) (s : State) : (buttonUpdate id v s).out = s.out := rfl
@[simp] theorem buttonUpdate_refused (id : Byte) (v : Bool) (s : State) : (buttonUpdate id v s).refused = s.refused := rfl
@[simp] theorem buttonUpdate_cfg (id : Byte) (v : Bool) (s : State) : (buttonUpdate id v s).cfg = s.cfg := rfl
@[simp] theorem buttonUpdate_result (id : Byte) (v : Bool) (s : State) : (buttonUpdate id v s).result = s.result := rfl
@[simp] theorem buttonUpdate_input (id : Byte) (v : Bool) (s : State) : (buttonUpdate id v s).input = s.input := rfl
@[simp] theorem buttonUpdate_inSink (id : Byte) (v : Bool) (s : State) : (buttonUpdate id v s).inSink = s.inSink := rfl

/-! ### wheelApply -/

@[simp] theorem wheelApply_fs (sel : Byte) (d : Int) (s : State) : (wheelApply sel d s).fs = s.fs := rfl
@[simp] theorem wheelApply_rdIdx (sel : Byte) (d : Int) (s : State) : (wheelApply sel d s).rdIdx = s.rdIdx := rfl
@[simp] theorem wheelApply_stIdx (sel : Byte) (d : Int) (s : State) : (wheelApply sel d s).stIdx = s.stIdx := rfl
@[simp] theorem wheelApply_enIdx (sel : Byte) (d : Int) (s : State) : (wheelApply sel d s).enIdx = s.enIdx := rfl
@[simp] theorem wheelApply_buf (sel : Byte) (d : Int) (s : State) : (wheelApply sel d s).buf = s.buf := rfl
@[simp] theorem wheelApply_buttons (sel : Byte) (d : Int) (s : State) : (wheelApply sel d s).buttons = s.buttons := rfl
@[simp] theorem wheelApply_wheels (sel : Byte) (d : Int) (s : State) : (wheelApply sel d s).wheels = s.wheels.map fun w => if w.sel = sel then applyDelta s.cfg d w else w := rfl
@[simp] theorem wheelApply_phase (sel : Byte) (d : Int) (s : State) : (wheelApply sel d s).phase = s.phase := rfl
@[simp] theorem wheelApply_out (sel : Byte) (d : Int) (s : State) : (wheelApply sel d s).out = s.out := rfl
@[simp] theorem wheelApply_refused (sel : Byte) (d : Int) (s : State) : (wheelApply sel d s).refused = s.refused := rfl
@[simp] theorem wheelApply_cfg (sel : Byte) (d : Int) (s : State) : (wheelApply sel d s).cfg = s.cfg := rfl
@[simp] theorem wheelApply_result (sel : Byte) (d : Int) (s : State) : (wheelApply sel d s).result = s.result := rfl
@[simp] theorem wheelApply_input (sel : Byte) (d : Int) (s : State) : (wheelApply sel d s).input = s.input := rfl
@[simp] theorem wheelApply_inSink (sel : Byte) (d : Int) (s : State) : (wheelApply sel d s).inSink = s.inSink := rfl

/-! ### latchWheels -/

@[simp] theorem latchWheels_fs (s : State) : (latchWheels s).fs = s.fs := rfl
@[simp] theorem latchWheels_rdIdx (s : State) : (latchWheels s).rdIdx = s.rdIdx := rfl
@[simp] theorem latchWheels_stIdx (s : State) : (latchWheels s).stIdx = s.stIdx := rfl
@[simp] theorem latchWheels_enIdx (s : State) : (latchWheels s).enIdx = s.enIdx := rfl
@[simp] theorem latchWheels_buf (s : State) : (latchWheels s).buf = s.buf := rfl
@[simp] theorem latchWheels_buttons (s : State) : (latchWheels s).buttons = s.buttons := rfl
@[simp] theorem latchWheels_wheels (s : State) : (latchWheels s).wheels = s.wheels.map latchWheel := rfl
@[simp] theorem latchWheels_phase (s : State) : (latchWheels s).phase = .run := rfl
@[simp] theorem latchWheels_out (s : State) : (latchWheels s).out = s.out := rfl
@[simp] theorem latchWheels_refused (s : State) : (latchWheels s).refused = s.refused := rfl
@[simp] theorem latchWheels_cfg (s : State) : (latchWheels s).cfg = s.cfg := rfl
@[simp] theorem latchWheels_result (s : State) : (latchWheels s).result = s.result := rfl
@[simp] theorem latchWheels_input (s : State) : (latchWheels s).input = s.input := rfl
@[simp] theorem latchWheels_inSink (s : State) : (latchWheels s).inSink = s.inSink := rfl

/-! ### resetBlock -/

@[simp] theorem resetBlock_fs (s : State) : (resetBlock s).fs = .searchStart := rfl
@[simp] theorem resetBlock_rdIdx (s : State) : (resetBlock s).rdIdx = 0 := rfl
@[simp] theorem resetBlock_stIdx (s : State) : (resetBlock s).stIdx = .searching := rfl
@[simp] theorem resetBlock_enIdx (s : State) : (resetBlock s).enIdx = .searching := rfl
@[simp] theorem resetBlock_buf (s : State) : (resetBlock s).buf = s.buf := rfl
@[simp] theorem resetBlock_buttons (s : State) : (resetBlock s).buttons = [] := rfl
@[simp] theorem resetBlock_wheels (s : State) : (resetBlock s).wheels = [] := rfl
@[simp] theorem resetBlock_phase (s : State) : (resetBlock s).phase = .setup := rfl
@[simp] theorem resetBlock_out (s : State) : (resetBlock s).out = [] := rfl
@[simp] theorem resetBlock_refused (s : State) : (resetBlock s).refused = s.refused := rfl
@[simp] theorem resetBlock_cfg (s : State) : (resetBlock s).cfg = s.cfg := rfl
@[simp] theorem resetBlock_result (s : State) : (resetBlock s).result = s.result := rfl
@[simp] theorem resetBlock_input (s : State) : (resetBlock s).input = s.input := rfl
@[simp] theorem resetBlock_inSink (s : State) : (resetBlock s).inSink = s.inSink := rfl

/-! ### addButton -/

@[simp] theorem addButton_fs (id : Byte) (s : State) : (addButton id s).fs = s.fs := rfl
@[simp] theorem addButton_rdIdx (id : Byte) (s : State) : (addButton id s).rdIdx = s.rdIdx := rfl
@[simp] theorem addButton_stIdx (id : Byte) (s : State) : (addButton id s).stIdx = s.stIdx := rfl
@[simp] theorem addButton_enIdx (id : Byte) (s : State) : (addButton id s).enIdx = s.enIdx := rfl
@[simp] theorem addButton_buf (id : Byte) (s : State) : (addButton id s).buf = s.buf := rfl
@[simp] theorem addButton_buttons (id : Byte) (s : State) : (addButton id s).buttons = s.buttons ++ [{ id := id, level := false }] := rfl
@[simp] theorem addButton_wheels (id : Byte) (s : State) : (addButton id s).wheels = s.wheels := rfl
@[simp] theorem addButton_phase (id : Byte) (s : State) : (addButton id s).phase = s.phase := rfl
@[simp] theorem addButton_out (id : Byte) (s : State) : (addButton id s).out = s.out := rfl
@[simp] theorem addButton_refused (id : Byte) (s : State) : (addButton id s).refused = s.refused := rfl
@[simp] theorem addButton_cfg (id : Byte) (s : State) : (addButton id s).cfg = s.cfg := rfl
@[simp] theorem addButton_result (id : Byte) (s : State) : (addButton id s).result = s.result := rfl
@[simp] theorem addButton_input (id : Byte) (s : State) : (addButton id s).input = s.input := rfl
@[simp] theorem addButton_inSink (id : Byte) (s : State) : (addButton id s).inSink = s.inSink := rfl

/-! ### addWheel -/

@[simp] theorem addWheel_fs (sel : Byte) (s : State) : (addWheel sel s).fs = s.fs := rfl
@[simp] theorem addWheel_rdIdx (sel : Byte) (s : State) : (addWheel sel s).rdIdx = s.rdIdx := rfl
@[simp] theorem addWheel_stIdx (sel : Byte) (s : State) : (addWheel sel s).stIdx = s.stIdx := rfl
@[simp] theorem addWheel_enIdx (sel : Byte) (s : State) : (addWheel sel s).enIdx = s.enIdx := rfl
@[simp] theorem addWheel_buf (sel : Byte) (s : State) : (addWheel sel s).buf = s.buf := rfl
@[simp] theorem addWheel_buttons (sel : Byte) (s : State) : (addWheel sel s).buttons = s.buttons := rfl
@[simp] theorem addWheel_wheels (sel : Byte) (s : State) : (addWheel sel s).wheels = s.wheels ++ [{ sel := sel, pending := 0, committed := 0 }] := rfl
@[simp] theorem addWheel_phase (sel : Byte) (s : State) : (addWheel sel s).phase = s.phase := rfl
@[simp] theorem addWheel_out (sel : Byte) (s : State) : (addWheel sel s).out = s.out := rfl
@[simp] theorem addWheel_refused (sel : Byte) (s : State) : (addWheel sel s).refused = s.refused := rfl
@[simp] theorem addWheel_cfg (sel : Byte) (s : State) : (addWheel sel s).cfg = s.cfg := rfl
@[simp] theorem addWheel_result (sel : Byte) (s : State) : (addWheel sel s).result = s.result := rfl
@[simp] theorem addWheel_input (sel : Byte) (s : State) : (addWheel sel s).input = s.input := rfl
@[simp] theorem addWheel_inSink (sel : Byte) (s : State) : (addWheel sel s).inSink = s.inSink := rfl

end Sys2Proof.Machine
end

