-- ==== Sys2Proof/Laws/Ops.lean ====
section
/-! SUPPORT. One lemma per shared operation that says once everything it can do, and the inversion of `step`. -/

namespace Sys2Proof.Machine

/-! ### Sequencing and the sink -/

@[simp] theorem andThen_next (s : State) (f : State → Step) : andThen (.next s) f = f s := rfl
@[simp] theorem andThen_fault (e : Fault) (f : State → Step) : andThen (.fault e) f = .fault e := rfl
@[simp] theorem andThen_refused (e : Refusal) (f : State → Step) : andThen (.refused e) f = .refused e := rfl

theorem andThen_eq_next {r : Step} {f : State → Step} {t : State} :
    andThen r f = .next t ↔ ∃ s, r = .next s ∧ f s = .next t := by
  cases r <;> simp

theorem andThen_assoc (r : Step) (f g : State → Step) :
    andThen (andThen r f) g = andThen r fun s => andThen (f s) g := by
  cases r <;> rfl

theorem outsideSink_of_false {s : State} (h : s.inSink = false) (f : State → Step) : outsideSink s f = f s := by
  simp [outsideSink, h]

theorem outsideSink_of_true {s : State} (h : s.inSink = true) (f : State → Step) :
    outsideSink s f = .next (refuse .reentrantOperation s) := by
  simp [outsideSink, h]

/-! ### The frame primitives -/

theorem bufWrite_of_lt {i : Nat} {s : State} (h : i < s.cfg.bufCap) (b : Byte) :
    bufWrite i b s = .next { s with buf := memWrite s.buf i b } := if_pos h

theorem bufWrite_eq_next {i : Nat} {b : Byte} {s t : State} :
    bufWrite i b s = .next t ↔ i < s.cfg.bufCap ∧ t = { s with buf := memWrite s.buf i b } := by
  unfold bufWrite
  split_ifs with h <;> simp [h, eq_comm]

theorem store_of_lt {s : State} (h : s.rdIdx < s.cfg.bufCap) (b : Byte) :
    store b s = .next { s with buf := memWrite s.buf s.rdIdx b, rdIdx := s.rdIdx + 1 } := by
  simp [store, bufWrite_of_lt h]

theorem store_eq_next {b : Byte} {s t : State} :
    store b s = .next t ↔
      s.rdIdx < s.cfg.bufCap ∧ t = { s with buf := memWrite s.buf s.rdIdx b, rdIdx := s.rdIdx + 1 } := by
  unfold store bufWrite
  split_ifs with h <;> simp [h, eq_comm]

/-- The overflow check fires, or leaves the state as it is. -/
theorem overflowCheck_cases (s : State) :
    (s.rdIdx = s.cfg.bufCap ∧ s.fs ≠ .checksumWait ∧ overflowCheck s = resetFrame s) ∨
    (¬(s.rdIdx = s.cfg.bufCap ∧ s.fs ≠ .checksumWait) ∧ overflowCheck s = s) := by
  by_cases h1 : s.rdIdx = s.cfg.bufCap <;> by_cases h2 : s.fs = .checksumWait <;>
    simp [overflowCheck, overflowed, h1, h2]

theorem overflowCheck_of_ne {s : State} (h : s.rdIdx ≠ s.cfg.bufCap) : overflowCheck s = s := by
  simp [overflowCheck, overflowed, h]

theorem bufReadRange_eq_ok {i n : Nat} {s : State} {p : List Byte} :
    bufReadRange i n s = .ok p ↔ (n = 0 ∨ i + n ≤ s.cfg.bufCap) ∧ memReadRange s.buf i n = p := by
  unfold bufReadRange
  split_ifs with h <;> simp [h]

/-- Everything the payload read can answer: the bytes between the confirmed cursors, if they lie in the buffer. -/
theorem readPayload_eq_ok {s : State} {p : List Byte} :
    readPayload s = .ok p ↔
      ∃ i j, s.stIdx = .pos i ∧ s.enIdx = .pos j ∧ (j - i = 0 ∨ i + (j - i) ≤ s.cfg.bufCap) ∧
        memReadRange s.buf i (j - i) = p := by
  unfold readPayload
  split
  · rename_i i j hi hj
    simp [hi, hj, bufReadRange_eq_ok]
  · rename_i h
    constructor
    · simp
    · rintro ⟨i, j, hi, hj, -⟩
      exact absurd hj (h i j hi)

/-! ### The dispatcher -/

theorem routeArgument_cases (args : List Byte) (command : Byte → State → State) (s : State) :
    routeArgument args command s = s ∨ ∃ a extra, args = a :: extra ∧ routeArgument args command s = command a s := by
  cases args with
  | nil => exact .inl rfl
  | cons a extra => exact .inr ⟨a, extra, rfl, rfl⟩

/-- Everything a dispatch can do (R113, R114): nothing, one notification of a byte of R70, one button update, or one
turn of the wheels of one legal selector. -/
theorem dispatch_cases (p : List Byte) (s : State) :
    dispatch p s = s ∨
    (∃ b, (b = 0x38 ∨ b = 0xFF ∨ b = 0x35) ∧ dispatch p s = emit (.notify b) s) ∨
    (∃ id v, dispatch p s = buttonUpdate id v s) ∨
    (∃ sel a d, legalSelector sel = true ∧ (d = wheelArg s.cfg a ∨ d = -wheelArg s.cfg a) ∧
      dispatch p s = wheelApply sel d s) := by
  cases p with
  | nil => exact .inl rfl
  | cons op args =>
    simp only [dispatch]
    split_ifs
    · cases args with
      | nil => exact .inl rfl
      | cons a extra =>
        simp only [dispatch79]
        split_ifs with h
        · exact .inr (.inl ⟨a, by tauto, rfl⟩)
        · exact .inl rfl
    · exact .inr (.inl ⟨_, by simp, rfl⟩)
    · rcases routeArgument_cases args (fun id => buttonUpdate id true) s with h | ⟨a, _, _, h⟩
      · exact .inl h
      · exact .inr (.inr (.inl ⟨a, true, h⟩))
    · rcases routeArgument_cases args (fun id => buttonUpdate id false) s with h | ⟨a, _, _, h⟩
      · exact .inl h
      · exact .inr (.inr (.inl ⟨a, false, h⟩))
    · rcases routeArgument_cases args (turnPos 0x40) s with h | ⟨a, _, _, h⟩
      · exact .inl h
      · exact .inr (.inr (.inr ⟨0x40, a, _, rfl, .inl rfl, h⟩))
    · rcases routeArgument_cases args (turnNeg 0x40) s with h | ⟨a, _, _, h⟩
      · exact .inl h
      · exact .inr (.inr (.inr ⟨0x40, a, _, rfl, .inr rfl, h⟩))
    · rcases routeArgument_cases args (turnPos 0x50) s with h | ⟨a, _, _, h⟩
      · exact .inl h
      · exact .inr (.inr (.inr ⟨0x50, a, _, rfl, .inl rfl, h⟩))
    · rcases routeArgument_cases args (turnNeg 0x50) s with h | ⟨a, _, _, h⟩
      · exact .inl h
      · exact .inr (.inr (.inr ⟨0x50, a, _, rfl, .inr rfl, h⟩))
    · exact .inl rfl

/-- A dispatch writes `out`, `buttons` and `wheels` alone (R114): everything else is the state's before. -/
theorem dispatch_frame (p : List Byte) (s : State) :
    dispatch p s =
      { s with out := (dispatch p s).out, buttons := (dispatch p s).buttons, wheels := (dispatch p s).wheels } := by
  rcases dispatch_cases p s with h | ⟨b, _, h⟩ | ⟨id, v, h⟩ | ⟨sel, a, d, _, _, h⟩ <;> rw [h] <;> rfl

@[simp] theorem dispatch_fs (p : List Byte) (s : State) : (dispatch p s).fs = s.fs := by rw [dispatch_frame]
@[simp] theorem dispatch_rdIdx (p : List Byte) (s : State) : (dispatch p s).rdIdx = s.rdIdx := by rw [dispatch_frame]
@[simp] theorem dispatch_stIdx (p : List Byte) (s : State) : (dispatch p s).stIdx = s.stIdx := by rw [dispatch_frame]
@[simp] theorem dispatch_enIdx (p : List Byte) (s : State) : (dispatch p s).enIdx = s.enIdx := by rw [dispatch_frame]
@[simp] theorem dispatch_buf (p : List Byte) (s : State) : (dispatch p s).buf = s.buf := by rw [dispatch_frame]
@[simp] theorem dispatch_phase (p : List Byte) (s : State) : (dispatch p s).phase = s.phase := by rw [dispatch_frame]
@[simp] theorem dispatch_refused (p : List Byte) (s : State) : (dispatch p s).refused = s.refused := by
  rw [dispatch_frame]
@[simp] theorem dispatch_cfg (p : List Byte) (s : State) : (dispatch p s).cfg = s.cfg := by rw [dispatch_frame]
@[simp] theorem dispatch_result (p : List Byte) (s : State) : (dispatch p s).result = s.result := by
  rw [dispatch_frame]
@[simp] theorem dispatch_input (p : List Byte) (s : State) : (dispatch p s).input = s.input := by rw [dispatch_frame]
@[simp] theorem dispatch_inSink (p : List Byte) (s : State) : (dispatch p s).inSink = s.inSink := by
  rw [dispatch_frame]

/-! ### Receiving -/

@[simp] theorem rxAll_nil (s : State) : rxAll [] s = .next s := rfl
@[simp] theorem rxAll_cons (b : Byte) (bs : List Byte) (s : State) :
    rxAll (b :: bs) s = andThen (rxByte b s) (rxAll bs) := rfl

theorem rxAll_append (as bs : List Byte) (s : State) :
    rxAll (as ++ bs) s = andThen (rxAll as s) (rxAll bs) := by
  induction as generalizing s with
  | nil => rfl
  | cons a as ih => cases h : rxByte a s <;> simp [h, ih]

/-! ### Steps -/

/-- Everything a step can do: nothing where there is no operation, a refusal where the item is no instruction, and
otherwise the instruction, in the state whose queue it has left. -/
theorem step_cases (s : State) :
    (s.input = [] ∧ step s = .next s) ∨
    ∃ it rest, s.input = it :: rest ∧
      ((∃ i, decode it.item = .ok i ∧ step s = exec i { s with input := rest, inSink := it.fromSink }) ∨
        ∃ e, decode it.item = .error e ∧ step s = .refused (.undecodable e)) := by
  cases h : s.input with
  | nil => exact .inl ⟨rfl, by simp [step, fetch, h]⟩
  | cons it rest =>
    refine .inr ⟨it, rest, rfl, ?_⟩
    cases hd : decode it.item with
    | ok i => exact .inl ⟨i, rfl, by simp [step, fetch, h, hd]⟩
    | error e => exact .inr ⟨e, rfl, by simp [step, fetch, h, hd]⟩

end Sys2Proof.Machine
end

