-- ==== Sys2Proof/Laws/PerInstr.lean ====
section
/-! SUPPORT. Per instruction: its encoding is of its row's format, and its leading bits are the row's `match` under the
row's `mask` (spec/opcode_table.json, read as spec/INDEX.md says: the first byte most significant). -/

namespace Sys2Proof.Laws.EncodingMatchesTable

/-- The `format` column of the opcode table. -/
inductive Format where
  | wireControlByte
  | wireFrame
  | inboundPayload
  | outboundPayload
  | interfaceOp
  deriving DecidableEq, Repr

/-- A row of the opcode table: its format, how many leading bytes its `match` has, its `mask` and its `match`. -/
structure Row where
  format : Format
  bytes : Nat
  mask : Nat
  value : Nat
  deriving DecidableEq, Repr

/-- The row of an instruction. -/
@[simp] def row : Instr → Row
  | .dle => ⟨.wireControlByte, 1, 0xFF, 0x10⟩
  | .stx => ⟨.wireControlByte, 1, 0xFF, 0x02⟩
  | .etx => ⟨.wireControlByte, 1, 0xFF, 0x03⟩
  | .ack => ⟨.wireControlByte, 1, 0xFF, 0x06⟩
  | .frame _ _ => ⟨.wireFrame, 2, 0xFFFF, 0x1002⟩
  | .notify7938 _ => ⟨.inboundPayload, 2, 0xFFFF, 0x7938⟩
  | .notify79FF _ => ⟨.inboundPayload, 2, 0xFFFF, 0x79FF⟩
  | .drop79 _ => ⟨.inboundPayload, 1, 0xFF, 0x79⟩
  | .notify35 _ => ⟨.inboundPayload, 1, 0xFF, 0x35⟩
  | .btnSet _ _ => ⟨.inboundPayload, 1, 0xFF, 0x30⟩
  | .btnClr _ _ => ⟨.inboundPayload, 1, 0xFF, 0x31⟩
  | .whl40Pos _ _ => ⟨.inboundPayload, 1, 0xFF, 0x40⟩
  | .whl40Neg _ _ => ⟨.inboundPayload, 1, 0xFF, 0x41⟩
  | .whl50Pos _ _ => ⟨.inboundPayload, 1, 0xFF, 0x50⟩
  | .whl50Neg _ _ => ⟨.inboundPayload, 1, 0xFF, 0x51⟩
  | .drop _ => ⟨.inboundPayload, 1, 0x00, 0x00⟩
  | .setIllumination _ => ⟨.outboundPayload, 1, 0xFF, 0x60⟩
  | .setHighlight _ => ⟨.outboundPayload, 3, 0xFF00FF, 0x640001⟩
  | .setLightGroup _ => ⟨.outboundPayload, 4, 0xFFFEFFFF, 0x68001010⟩
  | .setLight _ _ => ⟨.outboundPayload, 2, 0xFFFE, 0x6800⟩
  | .enableKeys => ⟨.outboundPayload, 2, 0xFFFF, 0x7012⟩
  | .shutdown => ⟨.outboundPayload, 2, 0xFFFF, 0x7011⟩
  | .reset => ⟨.interfaceOp, 1, 0xF, 0x0⟩
  | .rx _ => ⟨.interfaceOp, 1, 0xF, 0x1⟩
  | .tick => ⟨.interfaceOp, 1, 0xF, 0x2⟩
  | .regButton _ => ⟨.interfaceOp, 1, 0xF, 0x3⟩
  | .regWheel _ => ⟨.interfaceOp, 1, 0xF, 0x4⟩
  | .send _ => ⟨.interfaceOp, 1, 0xF, 0x5⟩
  | .readLevel _ => ⟨.interfaceOp, 1, 0xF, 0x6⟩
  | .readDelta _ => ⟨.interfaceOp, 1, 0xF, 0x7⟩
  | .wasTurned _ => ⟨.interfaceOp, 1, 0xF, 0x8⟩
  | .setIlluminationOp _ => ⟨.interfaceOp, 1, 0xF, 0x9⟩
  | .setHighlightOp _ => ⟨.interfaceOp, 1, 0xF, 0xA⟩
  | .setLightOp _ _ => ⟨.interfaceOp, 1, 0xF, 0xB⟩
  | .enableKeysOp => ⟨.interfaceOp, 1, 0xF, 0xC⟩
  | .shutdownOp => ⟨.interfaceOp, 1, 0xF, 0xD⟩
  | .update _ => ⟨.interfaceOp, 1, 0xF, 0xE⟩
  | .reservedF => ⟨.interfaceOp, 1, 0xF, 0xF⟩

/-- The format of an item. -/
@[simp] def itemFormat : Item → Format
  | .wireByte _ => .wireControlByte
  | .wireFrame _ => .wireFrame
  | .inbound _ => .inboundPayload
  | .outbound _ => .outboundPayload
  | .iface _ => .interfaceOp

/-- The first `n` bytes as one number, the first most significant; a byte that is not there counts as 0. -/
@[simp] def leadingBytes : Nat → List Byte → Nat
  | 0, _ => 0
  | n + 1, bs => (bs.headD 0).toNat * 256 ^ n + leadingBytes n bs.tail

/-- The leading bits of an item that a row of `n` bytes speaks of; of an operation word, its op code. -/
@[simp] def leadingWord (n : Nat) : Item → Nat
  | .wireByte b => leadingBytes n [b]
  | .wireFrame bs => leadingBytes n bs
  | .inbound p => leadingBytes n p
  | .outbound p => leadingBytes n p
  | .iface w => w.headD 0

/-- The encoding of a well-formed instruction is one its row describes. -/
def Statement (i : Instr) : Prop :=
  i.wellFormed = true →
    itemFormat (encode i) = (row i).format ∧ leadingWord (row i).bytes (encode i) &&& (row i).mask = (row i).value

theorem dle : Statement .dle := fun _ => ⟨rfl, rfl⟩
theorem stx : Statement .stx := fun _ => ⟨rfl, rfl⟩
theorem etx : Statement .etx := fun _ => ⟨rfl, rfl⟩
theorem ack : Statement .ack := fun _ => ⟨rfl, rfl⟩
theorem frame (body : List Byte) (cs : Byte) : Statement (.frame body cs) := fun _ => by simp [encode, DLE, STX]
theorem notify7938 (extra : List Byte) : Statement (.notify7938 extra) := fun _ => by simp [encode]
theorem notify79FF (extra : List Byte) : Statement (.notify79FF extra) := fun _ => by simp [encode]
theorem drop79 (args : List Byte) : Statement (.drop79 args) := fun _ => by simp [encode]
theorem notify35 (extra : List Byte) : Statement (.notify35 extra) := fun _ => by simp [encode]
theorem btnSet (id : Byte) (extra : List Byte) : Statement (.btnSet id extra) := fun _ => by simp [encode]
theorem btnClr (id : Byte) (extra : List Byte) : Statement (.btnClr id extra) := fun _ => by simp [encode]
theorem whl40Pos (a : Byte) (extra : List Byte) : Statement (.whl40Pos a extra) := fun _ => by simp [encode]
theorem whl40Neg (a : Byte) (extra : List Byte) : Statement (.whl40Neg a extra) := fun _ => by simp [encode]
theorem whl50Pos (a : Byte) (extra : List Byte) : Statement (.whl50Pos a extra) := fun _ => by simp [encode]
theorem whl50Neg (a : Byte) (extra : List Byte) : Statement (.whl50Neg a extra) := fun _ => by simp [encode]
theorem drop (p : List Byte) : Statement (.drop p) := fun _ => ⟨rfl, Nat.and_zero _⟩
theorem setIllumination (b : Byte) : Statement (.setIllumination b) := fun _ => by simp [encode]
theorem setHighlight (b : Byte) : Statement (.setHighlight b) := fun _ => ⟨rfl, by revert b; decide⟩
theorem setLightGroup (on : Bool) : Statement (.setLightGroup on) := fun _ => by cases on <;> exact ⟨rfl, rfl⟩
theorem setLight (on : Bool) (id : Byte) : Statement (.setLight on id) :=
  fun _ => by cases on <;> simp [encode, encodeOnOff]
theorem enableKeys : Statement .enableKeys := fun _ => ⟨rfl, rfl⟩
theorem shutdown : Statement .shutdown := fun _ => ⟨rfl, rfl⟩
theorem reset : Statement .reset := fun _ => ⟨rfl, rfl⟩
theorem rx (b : Byte) : Statement (.rx b) := fun _ => by simp [encode, byteWord]
theorem tick : Statement .tick := fun _ => ⟨rfl, rfl⟩
theorem regButton (id : Byte) : Statement (.regButton id) := fun _ => by simp [encode, byteWord]
theorem regWheel (sel : Byte) : Statement (.regWheel sel) := fun _ => by simp [encode, byteWord]
theorem send (p : List Byte) : Statement (.send p) := fun _ => by simp [encode, listWord]
theorem readLevel (i : Nat) : Statement (.readLevel i) := fun _ => by simp [encode]
theorem readDelta (i : Nat) : Statement (.readDelta i) := fun _ => by simp [encode]
theorem wasTurned (i : Nat) : Statement (.wasTurned i) := fun _ => by simp [encode]
theorem setIlluminationOp (b : Byte) : Statement (.setIlluminationOp b) := fun _ => by simp [encode, byteWord]
theorem setHighlightOp (b : Byte) : Statement (.setHighlightOp b) := fun _ => by simp [encode, byteWord]
theorem setLightOp (id on : Byte) : Statement (.setLightOp id on) := fun _ => by simp [encode]
theorem enableKeysOp : Statement .enableKeysOp := fun _ => ⟨rfl, rfl⟩
theorem shutdownOp : Statement .shutdownOp := fun _ => ⟨rfl, rfl⟩
theorem update (bs : List Byte) : Statement (.update bs) := fun _ => by simp [encode, listWord]
theorem reservedF : Statement .reservedF := fun _ => ⟨rfl, rfl⟩

end Sys2Proof.Laws.EncodingMatchesTable
end

