-- ==== Sys2Proof/Machine/ProgramText.lean ====
section
/-! DEFINITION. The program notation of spec/30_encoding.md R65: the line a test program writes an interface operation
with. The block never sees it. -/

namespace Sys2Proof.Machine

/-- A hexadecimal digit. -/
def hexDigit (n : Nat) : Char := if n < 10 then Char.ofNat (48 + n) else Char.ofNat (55 + n)

/-- A byte as a hex pair (R8). -/
def hexPair (b : Byte) : String := String.ofList [hexDigit (b.toNat / 16), hexDigit (b.toNat % 16)]

/-- A mnemonic and a byte list in hex pairs. -/
def hexLine (mnemonic : String) (bs : List Byte) : String :=
  bs.foldl (fun line b => line ++ " " ++ hexPair b) mnemonic

/-- A mnemonic and one byte operand. -/
def byteLine (mnemonic : String) (b : Byte) : String := mnemonic ++ " 0x" ++ hexPair b

/-- A mnemonic and a handle. -/
def indexLine (mnemonic : String) (i : Nat) : String := mnemonic ++ " " ++ toString i

/-- The line of an interface operation, `none` for what the notation has no spelling of: the reserved op, a SET_LIGHT
whose byte is no Boolean, and the rows of the other formats. -/
def programLine : Instr → Option String
  | .reset => some "reset"
  | .rx b => some (hexLine "rx" [b])
  | .tick => some "tick"
  | .regButton id => some (byteLine "reg_button" id)
  | .regWheel sel => some (byteLine "reg_wheel" sel)
  | .send p => some (hexLine "send" p)
  | .readLevel i => some (indexLine "read_level" i)
  | .readDelta i => some (indexLine "read_delta" i)
  | .wasTurned i => some (indexLine "was_turned" i)
  | .setIlluminationOp b => some (byteLine "set_illumination" b)
  | .setHighlightOp b => some (byteLine "set_highlight" b)
  | .setLightOp id on =>
    (booleanOperand on).map fun v => byteLine "set_light" id ++ (if v then " on" else " off")
  | .enableKeysOp => some "enable_keys"
  | .shutdownOp => some "shutdown"
  | .update bs => some (hexLine "update" bs)
  | .dle | .stx | .etx | .ack | .frame _ _ | .notify7938 _ | .notify79FF _ | .drop79 _ | .notify35 _ | .btnSet _ _
  | .btnClr _ _ | .whl40Pos _ _ | .whl40Neg _ _ | .whl50Pos _ _ | .whl50Neg _ _ | .drop _ | .setIllumination _
  | .setHighlight _ | .setLightGroup _ | .setLight _ _ | .enableKeys | .shutdown | .reservedF => none

end Sys2Proof.Machine
end

