-- ==== Sys2Proof/Machine/RegisterMap.lean ====
section
/-! DEFINITION. The numbers, codes and widths the spec gives the state elements so that a harness can name them
(spec/10_state.md R17, R34). No operation uses them. -/

namespace Sys2Proof.Machine

/-- The 3-bit code of a framing state (R17). -/
def frameStateCode : FrameState → BitVec 3
  | .searchStart => 0b000
  | .startPending => 0b001
  | .inPayload => 0b010
  | .endPending => 0b011
  | .checksumWait => 0b100

/-- The framing state of a code; the codes `0b101` to `0b111` name none (R33). -/
def frameStateOfCode (c : BitVec 3) : Option FrameState :=
  if c = 0b000 then some .searchStart
  else if c = 0b001 then some .startPending
  else if c = 0b010 then some .inPayload
  else if c = 0b011 then some .endPending
  else if c = 0b100 then some .checksumWait
  else none

/-- The code of `phase` (R34). -/
def phaseCode : Phase → BitVec 1
  | .setup => 0
  | .run => 1

/-- The elements of R34's register map. -/
inductive Element where
  | fs
  | rdIdx
  | stIdx
  | enIdx
  | buf
  | btnCount
  | btnId
  | btnLevel
  | whlCount
  | whlSel
  | whlPending
  | whlCommitted
  | phase
  deriving DecidableEq, Repr

/-- The element's number (R34). -/
def elementNumber : Element → Nat
  | .fs => 0
  | .rdIdx => 1
  | .stIdx => 2
  | .enIdx => 3
  | .buf => 4
  | .btnCount => 5
  | .btnId => 6
  | .btnLevel => 7
  | .whlCount => 8
  | .whlSel => 9
  | .whlPending => 10
  | .whlCommitted => 11
  | .phase => 12

/-- The width in bits R34 gives, one entry's width for an indexed element; `none` where it says 'index' or 'index or
sentinel'. For `n >= 1`, `ceil(log2(n + 1))` is `Nat.log2 n + 1`. -/
def elementWidth (c : Config) : Element → Option Nat
  | .fs => some 3
  | .rdIdx => some (Nat.log2 c.bufCap + 1)
  | .buf => some (c.bufCap * 8)
  | .btnId => some 8
  | .btnLevel => some 1
  | .whlSel => some 8
  | .whlPending => some c.wheelW
  | .whlCommitted => some c.wheelW
  | .phase => some 1
  | .stIdx | .enIdx | .btnCount | .whlCount => none

/-- How the environment reaches an element (R34, R35). -/
inductive Access where
  /-- No operation reads or writes it for the environment. -/
  | hidden
  /-- Written once, by a registration. -/
  | registration
  /-- Read by a read operation. -/
  | readOnly
  deriving DecidableEq, Repr

/-- The environment's access to an element (R34). -/
def elementAccess : Element → Access
  | .btnId | .whlSel => .registration
  | .btnLevel | .whlCommitted => .readOnly
  | .fs | .rdIdx | .stIdx | .enIdx | .buf | .btnCount | .whlCount | .whlPending | .phase => .hidden

end Sys2Proof.Machine
end

