-- ==== Sys2Proof/Tests/Slice0.lean ====
section
/-! SUPPORT. The model's own tests: ill-formed terms, one written-out word for every constructor, one step per
instruction with the expected value from spec/95_test_vectors.md, and a witness for every statement that has
hypotheses. -/

namespace Sys2Proof.Tests

open Sys2Proof Sys2Proof.Machine

/-! ### Well-formedness: one ill-formed term for each check -/

theorem test_wellFormed_refuses_drop79_38 : (Instr.drop79 [0x38]).wellFormed = false := by decide
theorem test_wellFormed_refuses_drop79_FF : (Instr.drop79 [0xFF, 0x00]).wellFormed = false := by decide
theorem test_wellFormed_refuses_drop_button : (Instr.drop [0x30, 0x01]).wellFormed = false := by decide
theorem test_wellFormed_refuses_drop_of_79 : (Instr.drop [0x79]).wellFormed = false := by decide
theorem test_wellFormed_refuses_drop_of_35 : (Instr.drop [0x35]).wellFormed = false := by decide
theorem test_wellFormed_refuses_single_form_on_group : (Instr.setLight true 0x10).wellFormed = false := by decide
theorem test_wellFormed_admits_the_neighbours :
    (Instr.drop79 []).wellFormed = true ∧ (Instr.drop79 [0x37]).wellFormed = true ∧
    (Instr.drop [0x30]).wellFormed = true ∧ (Instr.drop []).wellFormed = true ∧
    (Instr.setLight true 0x11).wellFormed = true := by decide

/-! ### Decoding, each word written from the tables of spec/30_encoding.md, one at least per constructor -/

theorem test_decode_control_bytes :
    decode (.wireByte 0x10) = .ok .dle ∧ decode (.wireByte 0x02) = .ok .stx ∧
    decode (.wireByte 0x03) = .ok .etx ∧ decode (.wireByte 0x06) = .ok .ack ∧
    decode (.wireByte 0x30) = .error (.notAControlByte 0x30) := by decide

theorem test_decode_frames :
    decode (.wireFrame [0x10, 0x02, 0x79, 0xFF, 0x10, 0x03, 0x9D]) = .ok (.frame [0x79, 0xFF] 0x9D) ∧
    decode (.wireFrame [0x10, 0x02, 0x10, 0x03, 0x25]) = .ok (.frame [] 0x25) ∧
    decode (.wireFrame [0x10, 0x02, 0x10, 0x03]) = .error .notAFrame := by decide

theorem test_decode_notifications :
    decode (.inbound [0x79, 0x38]) = .ok (.notify7938 []) ∧
    decode (.inbound [0x79, 0xFF, 0x00]) = .ok (.notify79FF [0x00]) ∧
    decode (.inbound [0x79]) = .ok (.drop79 []) ∧ decode (.inbound [0x79, 0xFE]) = .ok (.drop79 [0xFE]) ∧
    decode (.inbound [0x35, 0x10, 0x44]) = .ok (.notify35 [0x10, 0x44]) := by decide

theorem test_decode_buttons_and_wheels :
    decode (.inbound [0x30, 0x07]) = .ok (.btnSet 0x07 []) ∧ decode (.inbound [0x31, 0x07]) = .ok (.btnClr 0x07 []) ∧
    decode (.inbound [0x40, 0x05]) = .ok (.whl40Pos 0x05 []) ∧
    decode (.inbound [0x41, 0x03]) = .ok (.whl40Neg 0x03 []) ∧
    decode (.inbound [0x50, 0x02]) = .ok (.whl50Pos 0x02 []) ∧
    decode (.inbound [0x51, 0xFF]) = .ok (.whl50Neg 0xFF []) := by decide

theorem test_decode_drops :
    decode (.inbound []) = .ok (.drop []) ∧ decode (.inbound [0x51]) = .ok (.drop [0x51]) ∧
    decode (.inbound [0x60, 0x80]) = .ok (.drop [0x60, 0x80]) := by decide

theorem test_decode_outbound :
    decode (.outbound [0x60, 0x80]) = .ok (.setIllumination 0x80) ∧
    decode (.outbound [0x64, 0x20, 0x01]) = .ok (.setHighlight 0x20) ∧
    decode (.outbound [0x68, 0x01, 0x10, 0x10]) = .ok (.setLightGroup true) ∧
    decode (.outbound [0x68, 0x00, 0x05]) = .ok (.setLight false 0x05) ∧
    decode (.outbound [0x70, 0x12]) = .ok .enableKeys ∧ decode (.outbound [0x70, 0x11]) = .ok .shutdown ∧
    decode (.outbound [0x68, 0x01, 0x10]) = .error .notAnOutboundPayload := by decide

theorem test_decode_interface_0_to_7 :
    decode (.iface [0x0]) = .ok .reset ∧ decode (.iface [0x1, 0x10]) = .ok (.rx 0x10) ∧
    decode (.iface [0x2]) = .ok .tick ∧ decode (.iface [0x3, 0x07]) = .ok (.regButton 0x07) ∧
    decode (.iface [0x4, 0x40]) = .ok (.regWheel 0x40) ∧ decode (.iface [0x5, 2, 0x70, 0x12]) = .ok (.send [0x70, 0x12]) ∧
    decode (.iface [0x6, 300]) = .ok (.readLevel 300) ∧ decode (.iface [0x7, 1]) = .ok (.readDelta 1) := by decide

theorem test_decode_interface_8_to_F :
    decode (.iface [0x8, 1]) = .ok (.wasTurned 1) ∧ decode (.iface [0x9, 0x80]) = .ok (.setIlluminationOp 0x80) ∧
    decode (.iface [0xA, 0x20]) = .ok (.setHighlightOp 0x20) ∧
    decode (.iface [0xB, 0x05, 0x00]) = .ok (.setLightOp 0x05 0x00) ∧ decode (.iface [0xC]) = .ok .enableKeysOp ∧
    decode (.iface [0xD]) = .ok .shutdownOp ∧ decode (.iface [0xE, 1, 0x06]) = .ok (.update [0x06]) ∧
    decode (.iface [0xF]) = .ok .reservedF := by decide

theorem test_decode_rejects_by_name :
    decode (.iface []) = .error .emptyWord ∧ decode (.iface [0x10]) = .error (.opCodeOutOfRange 0x10) ∧
    decode (.iface [0x1, 256]) = .error (.byteOutOfRange 256) ∧
    decode (.iface [0x5, 2, 0x70]) = .error (.operandMismatch 0x5) := by decide

/-- Three table words, numbered as the table numbers them. -/
theorem test_table_words :
    decodeTableWord 16 0x7938 = some (.notify7938 []) ∧ decodeTableWord 8 0x0F = some .reservedF ∧
    decodeTableWord 32 0x68011010 = some (.setLightGroup true) := by decide

/-! ### One step per instruction -/

/-- A field of the next state, if there is one. -/
def after {α : Type} (r : Step) (f : State → α) : Option α :=
  match r with
  | .next s => some (f s)
  | .fault _ => none
  | .refused _ => none

/-- The parameters of section 2.2 of the vectors. -/
def smallConfig : Config := { Config.default with bufCap := 8 }

/-- The registry of section 2.3 of the vectors. -/
def sample : State :=
  { State.resetWith smallConfig Memory.blank with
    buttons := [⟨0x07, false⟩, ⟨0x07, false⟩, ⟨0x10, false⟩]
    wheels := [⟨0x40, 0, 0⟩, ⟨0x50, 0, 0⟩] }

/-- After `rx 10`. -/
def started : State := { sample with fs := .startPending, rdIdx := 1, stIdx := .tentative, buf := [(0, 0x10)], phase := .run }

/-- After `rx 10 02 30 07`. -/
def inFrame : State :=
  { sample with
    fs := .inPayload, rdIdx := 4, stIdx := .pos 2, phase := .run
    buf := [(0, 0x10), (1, 0x02), (2, 0x30), (3, 0x07)] }

/-- After `rx 10 02 30 07 10`. -/
def ending : State :=
  { inFrame with fs := .endPending, rdIdx := 5, enIdx := .tentative, buf := inFrame.buf ++ [(4, 0x10)] }

/-- After `rx 10 02 30 07 10 03`. -/
def awaiting : State :=
  { ending with fs := .checksumWait, rdIdx := 6, enIdx := .pos 4, buf := ending.buf ++ [(5, 0x03)] }

/-- After `rx 10 02 01 02 03 04 05`: one place is left (F9). -/
def nearlyFull : State :=
  { inFrame with rdIdx := 7, buf := [(0, 0x10), (1, 0x02), (2, 1), (3, 2), (4, 3), (5, 4), (6, 5)] }

/-- After `rx 10 02 01 02 03 04 10`: one place is left. -/
def nearlyFullEnding : State :=
  { nearlyFull with fs := .endPending, enIdx := .tentative, buf := [(0, 0x10), (1, 0x02), (2, 1), (3, 2), (4, 3), (5, 4), (6, 0x10)] }

/-- Deltas waiting and latched (W2). -/
def turnedState : State := { sample with wheels := [⟨0x40, 5, 0⟩, ⟨0x50, 0, -255⟩], phase := .run }

/-- The framing row of section 2.2. -/
def framing (s : State) : FrameState × Nat × Cursor × Cursor := (s.fs, s.rdIdx, s.stIdx, s.enIdx)

theorem test_reset_state_is_good : State.reset.Inv := by decide
/-- Every byte of the buffer has a value at reset, and a write of that value leaves no cell. -/
theorem test_buffer_bytes :
    (memReadRange State.reset.buf 0 State.reset.cfg.bufCap).length = 32 ∧ memRead State.reset.buf 31 = 0x00 ∧
    memWrite [(2, 0x30), (3, 0x07)] 2 0x00 = [(3, 0x07)] ∧ memWrite [(1, 0x02)] 0 0x10 = [(0, 0x10), (1, 0x02)] := by
  decide
theorem test_samples_are_good :
    sample.Inv ∧ started.Inv ∧ inFrame.Inv ∧ ending.Inv ∧ awaiting.Inv ∧ nearlyFull.Inv ∧ nearlyFullEnding.Inv ∧
    turnedState.Inv := by decide

theorem test_rx_F9_overflow : after (exec (.rx 0x06) nearlyFull) framing =
    some (.searchStart, 0, .searching, .searching) := by decide
theorem test_rx_checksum_presses_the_buttons :
    after (exec (.rx 0x5C) awaiting) (fun s => (s.out, s.buttons.map (·.level), framing s)) =
      some ([.tx 0x06], [true, true, false], .searchStart, 0, .searching, .searching) := by decide
theorem test_dle_stuffed : after (exec .dle ending) framing = some (.endPending, 5, .pos 2, .tentative) := by decide
theorem test_dle_false_start : after (exec .dle started) framing =
    some (.searchStart, 0, .searching, .searching) := by decide
theorem test_stx_confirms : after (exec .stx started) framing = some (.inPayload, 2, .pos 2, .searching) := by decide
theorem test_stx_F1_resync :
    after (exec .stx { ending with cfg := { smallConfig with resyncOnDleStx := true } }) framing =
      some (.inPayload, 2, .pos 2, .searching) := by decide
theorem test_etx_confirms : after (exec .etx ending) framing = some (.checksumWait, 6, .pos 2, .pos 4) := by decide
theorem test_ack_S12_ignored : after (exec .ack sample) (fun s => (framing s, s.out)) =
    some ((.searchStart, 0, .searching, .searching), []) := by decide
theorem test_frame_F10_boundary :
    after (exec (.frame [0x30, 0x07, 0xAA, 0xBB] 0xC1) sample) (fun s => (s.out, s.buttons.map (·.level))) =
      some ([.tx 0x06], [true, true, false]) := by decide
theorem test_frame_E9_bad_checksum :
    after (exec (.frame [0x30, 0x07] 0x00) sample) (fun s => (s.out, s.buttons.map (·.level))) =
      some ([], [false, false, false]) := by decide
theorem test_notify7938 : after (exec (.notify7938 []) sample) (·.out) = some [.notify 0x38] := by decide
theorem test_notify79FF : after (exec (.notify79FF [0x00, 0x00]) sample) (·.out) = some [.notify 0xFF] := by decide
theorem test_notify35 : after (exec (.notify35 [0x10, 0x44]) sample) (·.out) = some [.notify 0x35] := by decide
theorem test_drop79 : after (exec (.drop79 [0x12]) sample) (·.out) = some [] := by decide
theorem test_drop : after (exec (.drop [0x40]) sample) (·.wheels) = some sample.wheels := by decide
theorem test_btnSet_every_match : after (exec (.btnSet 0x07 []) sample) (·.buttons.map (·.level)) =
    some [true, true, false] := by decide
theorem test_btnClr : after (exec (.btnClr 0x07 [])
    { sample with buttons := [⟨0x07, true⟩, ⟨0x10, true⟩] }) (·.buttons.map (·.level)) = some [false, true] := by decide
/-- 255, or -1 where the argument is signed. -/
theorem test_whl40Pos_FF :
    after (exec (.whl40Pos 0xFF []) sample) (·.wheels.map (·.pending)) = some [255, 0] ∧
    after (exec (.whl40Pos 0xFF []) { sample with cfg := { smallConfig with wheelArgSigned := true } })
      (·.wheels.map (·.pending)) = some [-1, 0] := by decide
theorem test_whl40Neg_80 : after (exec (.whl40Neg 0x80 []) sample) (·.wheels.map (·.pending)) =
    some [-128, 0] := by decide
theorem test_whl50Pos : after (exec (.whl50Pos 0x02 []) sample) (·.wheels.map (·.pending)) = some [0, 2] := by decide
theorem test_whl50Neg : after (exec (.whl50Neg 0xFF []) sample) (·.wheels.map (·.pending)) =
    some [0, -255] := by decide
/-- W7: `wrap_9(510) = -2`. -/
theorem test_whl40Pos_W7_accumulates :
    after (exec (.whl40Pos 0xFF [])
      { sample with
        cfg := { smallConfig with wheelAccumulate := true, wheelW := 9 }
        wheels := [⟨0x40, 255, 0⟩] }) (·.wheels.map (·.pending)) = some [-2] := by decide
theorem test_tick_W2 : after (exec .tick turnedState) (·.wheels) = some [⟨0x40, 0, 5⟩, ⟨0x50, 0, 0⟩] := by decide
theorem test_tick_W6_equal_deltas : after (exec .tick { sample with wheels := [⟨0x40, 5, 5⟩] }) (·.wheels) =
    some [⟨0x40, 0, 5⟩] := by decide
theorem test_readDelta : after (exec (.readDelta 1) turnedState) (·.result) = some (.delta (-255)) := by decide
theorem test_wasTurned_W1 : after (exec (.wasTurned 0) turnedState) (·.result) = some (.turned false) := by decide
theorem test_readLevel_E4 : after (exec (.readLevel 0) State.reset) (fun s => (s.result, s.refused)) =
    some (.refusedFor .readUnregistered, true) := by decide
theorem test_reset_E7_keeps_refused :
    after (exec .reset { awaiting with refused := true }) (fun s => (s.refused, s.phase, s.btnCount, s.fs)) =
      some (true, .setup, 0, .searchStart) := by decide
theorem test_regButton_fourth : after (exec (.regButton 0x08) sample) (fun s => (s.result, s.btnCount)) =
    some (.ok 3, 4) := by decide
theorem test_regButton_K3_no_room :
    after (exec (.regButton 0x07) (State.resetWith { smallConfig with maxButtons := 0 } Memory.blank)) (·.result) =
      some .fail := by decide
theorem test_regWheel_E3 : after (exec (.regWheel 0x41) sample) (·.result) =
    some (.refusedFor .badWheelSelector) := by decide
theorem test_regWheel_E2 : after (exec (.regWheel 0x40) started) (·.result) =
    some (.refusedFor .registerAfterSetup) := by decide
theorem test_send_K5_unescaped : after (exec (.send [0x10]) sample) (·.out) =
    some [.tx 0x10, .tx 0x02, .tx 0x10, .tx 0x10, .tx 0x03, .tx 0x35] := by decide
theorem test_setIllumination : after (exec (.setIllumination 0x80) sample) (·.out) =
    some ([0x10, 0x02, 0x60, 0x80, 0x10, 0x03, 0x05].map .tx) := by decide
theorem test_setHighlight : after (exec (.setHighlight 0x20) sample) (·.out) =
    some ([0x10, 0x02, 0x64, 0x20, 0x01, 0x10, 0x03, 0xAA].map .tx) := by decide
theorem test_setLightGroup_S8 : after (exec (.setLightGroup true) sample) (·.out) =
    some ([0x10, 0x02, 0x68, 0x01, 0x10, 0x10, 0x10, 0x03, 0xAE].map .tx) := by decide
theorem test_setLight_S8 : after (exec (.setLight false 0x05) sample) (·.out) =
    some ([0x10, 0x02, 0x68, 0x00, 0x05, 0x10, 0x03, 0x92].map .tx) := by decide
theorem test_enableKeys : after (exec .enableKeys sample) (·.out) =
    some ([0x10, 0x02, 0x70, 0x12, 0x10, 0x03, 0xA7].map .tx) := by decide
theorem test_shutdown : after (exec .shutdown sample) (·.out) =
    some ([0x10, 0x02, 0x70, 0x11, 0x10, 0x03, 0xA6].map .tx) := by decide
theorem test_setIlluminationOp_K8 : after (exec (.setIlluminationOp 0x10) sample) (·.out) =
    some ([0x10, 0x02, 0x60, 0x10, 0x10, 0x03, 0x95].map .tx) := by decide
theorem test_setHighlightOp : after (exec (.setHighlightOp 0x20) sample) (·.out) =
    some ([0x10, 0x02, 0x64, 0x20, 0x01, 0x10, 0x03, 0xAA].map .tx) := by decide
theorem test_setLightOp_K7 : after (exec (.setLightOp 0x05 0x01) sample) (·.out) =
    some ([0x10, 0x02, 0x68, 0x01, 0x05, 0x10, 0x03, 0x93].map .tx) := by decide
theorem test_setLightOp_E6 : after (exec (.setLightOp 0x05 0x02) sample) (fun s => (s.refused, s.out)) =
    some (true, []) := by decide
theorem test_enableKeysOp : after (exec .enableKeysOp sample) (·.out) =
    some ([0x10, 0x02, 0x70, 0x12, 0x10, 0x03, 0xA7].map .tx) := by decide
theorem test_shutdownOp : after (exec .shutdownOp sample) (·.out) =
    some ([0x10, 0x02, 0x70, 0x11, 0x10, 0x03, 0xA6].map .tx) := by decide
theorem test_update_K10 :
    after (exec (.update [0x10, 0x02, 0x40, 0x05, 0x10, 0x03, 0x6A]) sample) (fun s => (s.out, s.wheels)) =
      some ([.tx 0x06], [⟨0x40, 0, 5⟩, ⟨0x50, 0, 0⟩]) := by decide
theorem test_reservedF_E5 : after (exec .reservedF sample) (·.result) =
    some (.refusedFor .reservedOperation) := by decide
theorem test_step_runs_the_placed_word :
    after (step (State.reset.withFetchWord 16 0x7012)) (·.out) =
      some ([0x10, 0x02, 0x70, 0x12, 0x10, 0x03, 0xA7].map .tx) := by decide

/-! ### The register map and the program notation -/

theorem test_framing_codes_of_R17 :
    [FrameState.searchStart, .startPending, .inPayload, .endPending, .checksumWait].map frameStateCode =
      [0b000, 0b001, 0b010, 0b011, 0b100] ∧
    [0b101, 0b110, 0b111].map frameStateOfCode = [none, none, none] := by decide
theorem test_framing_codes_read_back (f : FrameState) : frameStateOfCode (frameStateCode f) = some f := by
  cases f <;> decide
theorem test_register_widths_of_R34 :
    elementWidth Config.default .rdIdx = some 6 ∧ elementWidth smallConfig .rdIdx = some 4 ∧
    elementWidth Config.default .whlPending = some 16 ∧ elementNumber .phase = 12 := by decide
theorem test_program_lines_of_R65 :
    programLine (.regButton 0x07) = some "reg_button 0x07" ∧ programLine (.send [0x60, 0x80]) = some "send 60 80" ∧
    programLine (.setLightOp 0x10 0x01) = some "set_light 0x10 on" := by decide

/-! ### Witnesses: hypotheses of the statements, met by concrete states and operands -/

/-- `sample` with one item of the environment's. -/
def given (it : Item) (s : State) : State := { s with input := [{ item := it, fromSink := false }] }

theorem witness_DecodeReadsBackEveryEncoding :
    (Instr.setLight true 0x11).wellFormed = true ∧ (Instr.drop79 [0x39]).wellFormed = true ∧
    (Instr.drop [0x51]).wellFormed = true := by decide
theorem witness_EveryDecodedItemIsItsInstructionsEncoding :
    decode (.iface [0x1, 255]) = .ok (.rx 0xFF) := by decide
theorem witness_WrapIsTheResidueInTheWidthsRange :
    1 ≤ 1 ∧ DeltaFits 1 (-1) ∧ ((3 : Int) - (-1)) % 2 ^ 1 = 0 := by decide
theorem witness_TurnArgumentIsExtendedAsConfigured :
    wheelArg { smallConfig with wheelArgSigned := true } 0x80 = -128 ∧
    wheelArg { smallConfig with wheelArgSigned := true } 0x7F = 127 ∧ wheelArg smallConfig 0x80 = 128 := by decide
theorem witness_StepRunsTheDecodedInstruction :
    (given (.iface [0x2]) sample).input = { item := .iface [0x2], fromSink := false } :: [] ∧
    decode (.iface [0x2]) = .ok .tick := by decide
theorem witness_StepIdlesWithoutOperationAndRejectsByName_idle : sample.input = [] := by decide
theorem witness_StepIdlesWithoutOperationAndRejectsByName_reject :
    (given (.wireByte 0x30) sample).input = [{ item := .wireByte 0x30, fromSink := false }] ∧
    decode (.wireByte 0x30) = .error (.notAControlByte 0x30) := by decide
theorem witness_StepsPerformTheQueuedOperationsInOrder :
    (∀ i ∈ [Instr.rx 0x10, .stx, .tick], i.wellFormed = true) ∧ sample.inSink = false := by decide
theorem witness_ResetStateSatisfiesTheInvariant :
    Config.Wf { Config.default with bufCap := 5, wheelW := 9, maxButtons := 0, maxWheels := 0 } ∧
    BufferContents 5 [(0, 0xFF), (4, 0x01)] := by decide
theorem witness_EveryStepKeepsTheInvariant :
    (given (.wireByte 0x10) nearlyFull).Inv ∧ ∃ t, step (given (.wireByte 0x10) nearlyFull) = .next t :=
  ⟨by decide, _, rfl⟩
theorem witness_NoInstructionStopsInAGoodState : awaiting.Inv ∧ nearlyFullEnding.Inv := by decide
theorem witness_NoInstructionClearsTheRefusalMark :
    ({ sample with refused := true } : State).refused = true ∧
    ∃ t, exec .reset { sample with refused := true } = .next t := ⟨by decide, _, rfl⟩
theorem witness_OnlyReceivingWritesTheFrameBuffer :
    receives .tick = false ∧ Instr.tick ≠ .reset ∧ ∃ t, exec .tick inFrame = .next t :=
  ⟨by decide, by decide, _, rfl⟩
theorem witness_OnlyReceivingWritesTheFrameBuffer_reset :
    receives .reset = false ∧ ∃ t, exec .reset inFrame = .next t := ⟨by decide, _, rfl⟩
theorem witness_OnlyATickWritesCommittedDeltas :
    Instr.stx ≠ .tick ∧ (∀ bs, Instr.stx ≠ .update bs) ∧ Instr.stx ≠ .reset ∧ (∀ sel, Instr.stx ≠ .regWheel sel) ∧
    ∃ t, exec .stx started = .next t := ⟨by decide, nofun, by decide, nofun, _, rfl⟩
theorem witness_OnlyACommandChangesButtonLevels :
    receives .tick = false ∧ (∀ id extra, Instr.tick ≠ .btnSet id extra ∧ Instr.tick ≠ .btnClr id extra) ∧
    Instr.tick ≠ .reset ∧ (∀ id, Instr.tick ≠ .regButton id) ∧ ∃ t, exec .tick sample = .next t :=
  ⟨by decide, fun _ _ => ⟨nofun, nofun⟩, by decide, nofun, _, rfl⟩
theorem witness_HandlesStayAndTheTraceGrowsUntilReset :
    Instr.regButton 0x09 ≠ .reset ∧ ∃ t, exec (.regButton 0x09) sample = .next t := ⟨by decide, _, rfl⟩
theorem witness_DefaultDeltasStayWithin255 :
    DefaultDeltas (given (.inbound [0x51, 0xFF]) turnedState) ∧
    ∃ t, step (given (.inbound [0x51, 0xFF]) turnedState) = .next t := ⟨by decide, _, rfl⟩

theorem witness_DleWhileSearchingOpensAFrame :
    sample.fs = .searchStart ∧ sample.rdIdx = 0 ∧ 5 ≤ sample.cfg.bufCap ∧ sample.inSink = false := by decide
theorem witness_OtherBytesWhileSearchingAreNotStored :
    sample.fs = .searchStart ∧ sample.inSink = false ∧ (0x11 : Byte) ≠ 0x10 ∧ (0x11 : Byte) ≠ 0x06 := by decide
theorem witness_StxConfirmsTheStart :
    started.fs = .startPending ∧ started.rdIdx = 1 ∧ 5 ≤ started.cfg.bufCap ∧ started.inSink = false := by decide
theorem witness_FalseStartAbandonsTheFrame :
    started.fs = .startPending ∧ (0x10 : Byte) ≠ 0x02 ∧ started.inSink = false := by decide
theorem witness_DleInPayloadMayEndTheFrame :
    inFrame.fs = .inPayload ∧ inFrame.rdIdx < inFrame.cfg.bufCap ∧ inFrame.inSink = false := by decide
theorem witness_DleInPayloadMayEndTheFrame_overflow :
    nearlyFull.fs = .inPayload ∧ nearlyFull.rdIdx < nearlyFull.cfg.bufCap ∧ nearlyFull.inSink = false ∧
    nearlyFull.rdIdx + 1 = nearlyFull.cfg.bufCap := by decide
theorem witness_ByteInPayloadJoinsIt :
    inFrame.fs = .inPayload ∧ (0x02 : Byte) ≠ 0x10 ∧ inFrame.rdIdx < inFrame.cfg.bufCap ∧
    inFrame.inSink = false := by decide
theorem witness_ByteInPayloadJoinsIt_overflow :
    nearlyFull.fs = .inPayload ∧ (0x06 : Byte) ≠ 0x10 ∧ nearlyFull.rdIdx < nearlyFull.cfg.bufCap ∧
    nearlyFull.inSink = false ∧ nearlyFull.rdIdx + 1 = nearlyFull.cfg.bufCap := by decide
theorem witness_EtxAfterDleConfirmsTheEnd :
    nearlyFullEnding.fs = .endPending ∧ 1 ≤ nearlyFullEnding.rdIdx ∧
    nearlyFullEnding.rdIdx < nearlyFullEnding.cfg.bufCap ∧ nearlyFullEnding.inSink = false := by decide
theorem witness_StuffedDleIsNotStored : ending.fs = .endPending ∧ ending.inSink = false := by decide
theorem witness_StxAfterDleRestartsTheFrameUnderResync :
    let s : State := { nearlyFullEnding with cfg := { smallConfig with resyncOnDleStx := true } }
    s.fs = .endPending ∧ s.rdIdx < s.cfg.bufCap ∧ 2 ≤ s.cfg.bufCap ∧ s.inSink = false ∧
    s.cfg.resyncOnDleStx = true := by decide
theorem witness_StxAfterDleRestartsTheFrameUnderResync_falseEnd :
    ending.fs = .endPending ∧ ending.rdIdx < ending.cfg.bufCap ∧ 2 ≤ ending.cfg.bufCap ∧ ending.inSink = false ∧
    ending.cfg.resyncOnDleStx = false ∧ nearlyFullEnding.rdIdx + 1 = nearlyFullEnding.cfg.bufCap := by decide
theorem witness_FalseEndKeepsDleAndByteInThePayload :
    ending.fs = .endPending ∧ (0x02 : Byte) ≠ 0x03 ∧ (0x02 : Byte) ≠ 0x10 ∧
    ¬((0x02 : Byte) = 0x02 ∧ ending.cfg.resyncOnDleStx = true) ∧ ending.rdIdx < ending.cfg.bufCap ∧
    ending.inSink = false := by decide
theorem witness_FalseEndKeepsDleAndByteInThePayload_overflow :
    nearlyFullEnding.fs = .endPending ∧ (0x06 : Byte) ≠ 0x03 ∧ (0x06 : Byte) ≠ 0x10 ∧
    ¬((0x06 : Byte) = 0x02 ∧ nearlyFullEnding.cfg.resyncOnDleStx = true) ∧
    nearlyFullEnding.rdIdx < nearlyFullEnding.cfg.bufCap ∧ nearlyFullEnding.inSink = false ∧
    nearlyFullEnding.rdIdx + 1 = nearlyFullEnding.cfg.bufCap := by decide
theorem witness_payload : PayloadIs awaiting [0x30, 0x07] := ⟨2, 4, rfl, rfl, by decide, rfl, by decide⟩
theorem witness_MatchingChecksumAcknowledgesAndDispatches :
    awaiting.fs = .checksumWait ∧ PayloadIs awaiting [0x30, 0x07] ∧ awaiting.inSink = false :=
  ⟨by decide, witness_payload, by decide⟩
theorem witness_MismatchedChecksumDiscardsTheFrame :
    awaiting.fs = .checksumWait ∧ PayloadIs awaiting [0x30, 0x07] ∧ (0x5D : Byte) ≠ checksum [0x30, 0x07] ∧
    awaiting.inSink = false := ⟨by decide, witness_payload, by decide, by decide⟩

theorem witness_CleanFrameIsAcknowledgedAndDispatched :
    sample.Inv ∧ sample.inSink = false ∧ sample.fs = .searchStart ∧ (0x10 : Byte) ∉ [0x30, 0x07, 0xAA, 0xBB] ∧
    [0x30, 0x07, 0xAA, (0xBB : Byte)].length + 4 ≤ sample.cfg.bufCap := by decide
theorem witness_CorruptedFrameHasNoEffect :
    sample.Inv ∧ sample.inSink = false ∧ sample.fs = .searchStart ∧ (0x10 : Byte) ∉ [0x30, 0x07, 0xAA, 0xBB] ∧
    [0x30, 0x07, 0xAA, (0xBB : Byte)].length + 4 ≤ sample.cfg.bufCap ∧
    (0xC0 : Byte) ≠ checksum [0x30, 0x07, 0xAA, 0xBB] := by decide
theorem witness_OverlongFrameIsNeverDelivered :
    sample.Inv ∧ sample.inSink = false ∧ sample.fs = .searchStart ∧ (0x10 : Byte) ∉ [0x31, 0x07, 0xAA, 0xBB, 0xCC] ∧
    sample.cfg.bufCap < [0x31, 0x07, 0xAA, 0xBB, (0xCC : Byte)].length + 4 := by decide
theorem witness_StrayDleLosesTheNextFrame :
    sample.Inv ∧ sample.inSink = false ∧ sample.fs = .searchStart ∧ (0x10 : Byte) ∉ [0x30, 0x07] := by decide
theorem witness_OwnGroupLightFrameIsNotRecovered :
    sample.Inv ∧ sample.inSink = false ∧ sample.fs = .searchStart := by decide
theorem witness_DleRunLengthDoesNotMatter :
    inFrame.fs = .inPayload ∧ inFrame.rdIdx + 1 < inFrame.cfg.bufCap := by decide
theorem witness_OneByteAppendsAtMostAnAckAndANotification : ∃ t, exec (.rx 0x5C) awaiting = .next t := ⟨_, rfl⟩
theorem witness_SendingDoesNotDisturbReceiving : ∃ t, exec (.rx 0x5C) awaiting = .next t := ⟨_, rfl⟩

theorem witness_TickLatchesEveryWheel : turnedState.inSink = false := by decide
theorem witness_TurnShowsForExactlyOneTick :
    sample.cfg.Wf ∧ sample.inSink = false ∧ sample.wheels[1]? = some ⟨0x50, 0, 0⟩ ∧
    (⟨0x50, 0, 0⟩ : Wheel).sel = turnSelector true ∧ (⟨0x50, 0, 0⟩ : Wheel).pending = 0 := by decide
theorem witness_SeveralTurnsInOneTickCollapseOrAccumulate :
    let s : State := { sample with wheels := [⟨0x40, -256, 0⟩], cfg := { smallConfig with wheelW := 9, wheelAccumulate := true } }
    s.cfg.Wf ∧ s.inSink = false ∧ s.wheels[0]? = some ⟨0x40, -256, 0⟩ ∧
    (⟨0x40, -256, 0⟩ : Wheel).sel = turnSelector false ∧ DeltaFits s.cfg.wheelW (-256) ∧
    s.cfg.wheelAccumulate = true := by decide
theorem witness_SeveralTurnsInOneTickCollapseOrAccumulate_collapse :
    turnedState.cfg.Wf ∧ turnedState.inSink = false ∧ turnedState.wheels[0]? = some ⟨0x40, 5, 0⟩ ∧
    (⟨0x40, 5, 0⟩ : Wheel).sel = turnSelector false ∧ DeltaFits turnedState.cfg.wheelW 5 ∧
    turnedState.cfg.wheelAccumulate = false ∧
    [(false, (3 : Byte)), (false, 5)].getLast? = some (false, 5) := by decide
theorem witness_WheelReadsAnswerFromCommitted :
    turnedState.wheels[1]? = some ⟨0x50, 0, -255⟩ ∧ turnedState.wheels.length ≤ 2 := by decide
theorem witness_ButtonReadAnswersTheLevel :
    sample.buttons[2]? = some ⟨0x10, false⟩ ∧ sample.buttons.length ≤ 3 := by decide

theorem witness_ResetStartsANewLifetime : awaiting.inSink = false := by decide
theorem witness_RegisterButtonAppendsFailsOrIsRefused_room :
    sample.inSink = false ∧ sample.phase = .setup ∧ sample.buttons.length ≠ sample.cfg.maxButtons := by decide
theorem witness_RegisterButtonAppendsFailsOrIsRefused_full :
    let s : State := { sample with cfg := { smallConfig with maxButtons := 3 } }
    s.inSink = false ∧ s.phase = .setup ∧ s.buttons.length = s.cfg.maxButtons := by decide
theorem witness_RegisterButtonAppendsFailsOrIsRefused_run : started.inSink = false ∧ started.phase = .run := by decide
theorem witness_RegisterWheelAppendsFailsOrIsRefused_room :
    sample.inSink = false ∧ sample.phase = .setup ∧ ((0x50 : Byte) = 0x40 ∨ (0x50 : Byte) = 0x50) ∧
    sample.wheels.length ≠ sample.cfg.maxWheels := by decide
theorem witness_RegisterWheelAppendsFailsOrIsRefused_full :
    let s : State := { sample with cfg := { smallConfig with maxWheels := 2 } }
    s.inSink = false ∧ s.phase = .setup ∧ ((0x40 : Byte) = 0x40 ∨ (0x40 : Byte) = 0x50) ∧
    s.wheels.length = s.cfg.maxWheels := by decide
theorem witness_RegisterWheelAppendsFailsOrIsRefused_badSelector :
    sample.inSink = false ∧ sample.phase = .setup ∧ (0x41 : Byte) ≠ 0x40 ∧ (0x41 : Byte) ≠ 0x50 := by decide
theorem witness_RegisterWheelAppendsFailsOrIsRefused_run : started.inSink = false ∧ started.phase = .run := by decide
theorem witness_SetLightSendsTheGroupOrSingleForm :
    (0x11 : Byte) ≠ 0x10 ∧ ((0x01 : Byte) = 0x00 ∨ (0x01 : Byte) = 0x01) ∧
    ((0x02 : Byte) ≠ 0x00 ∧ (0x02 : Byte) ≠ 0x01) := by decide
theorem witness_UpdateReceivesEveryByteThenTicks : nearlyFullEnding.Inv ∧ nearlyFullEnding.inSink = false := by
  decide
theorem witness_ReentrantOperationsAreRefused :
    let s : State := { awaiting with inSink := true }
    s.inSink = true ∧ receives (.update []) = true ∧ receives (.rx 0x5C) = true ∧
    (∃ id, Instr.regButton 0x07 = .regButton id) ∧ ∃ sel, Instr.regWheel 0x40 = .regWheel sel :=
  ⟨rfl, rfl, rfl, ⟨_, rfl⟩, _, rfl⟩

/-- The bytes at and above the read cursor differ. -/
theorem witness_UnstoredBufferBytesAreNeverObserved :
    inFrame.Inv ∧ SameButUnstoredBytes inFrame { inFrame with buf := inFrame.buf ++ [(4, 0xEE), (7, 0x10)] } :=
  ⟨by decide, rfl, by decide⟩

end Sys2Proof.Tests
end

section
/-! PROOFS. The frame codec (spec/40_framecodec.md): RX of one byte in each framing state, the checksum, and SEND. First
the rule of each operation, stated once; then the statements, each assembled from these rules. -/

namespace Sys2Proof.Machine

/-! ### Rules of the shared operations -/

/-- A byte list's sum carried in a byte is the sum of the numbers, modulo 256, from any seed. -/
theorem toNat_foldl_add (seed : Byte) (p : List Byte) :
    (p.foldl (· + ·) seed).toNat = (seed.toNat + (p.map BitVec.toNat).sum) % 256 := by
  induction p generalizing seed with
  | nil => simp [Nat.mod_eq_of_lt seed.isLt]
  | cons b p ih =>
    have hstep : (p.foldl (· + ·) (seed + b)).toNat = ((seed + b).toNat + (p.map BitVec.toNat).sum) % 256 := ih _
    simp only [List.foldl_cons, List.map_cons, List.sum_cons, hstep, BitVec.toNat_add]
    omega

/-- A write of one byte stores it at its index and keeps every other index. -/
theorem storedAt_memWrite (s : State) (i : Nat) (b : Byte) : StoredAt s i b (memWrite s.buf i b) :=
  fun a => memRead_memWrite s.buf i a b

theorem resetFrame_eq_searching (s : State) : resetFrame s = searching s := rfl

/-- Outside the checksum step a full buffer abandons the frame (R89). -/
theorem overflowCheck_of_not_checksumWait {s : State} (h : s.fs ≠ .checksumWait) :
    overflowCheck s = if s.rdIdx = s.cfg.bufCap then searching s else s := by
  split_ifs with hfull
  · simp [overflowCheck, overflowed, hfull, h, resetFrame_eq_searching]
  · exact overflowCheck_of_ne hfull

/-- The payload between confirmed cursors is what the checksum step reads (R90). -/
theorem readPayload_of_payloadIs {s : State} {p : List Byte} (h : PayloadIs s p) : readPayload s = .ok p := by
  obtain ⟨i, j, hst, hen, hcap, hlen, hbytes⟩ := h
  have hread : memReadRange s.buf i (j - i) = p := memReadRange_eq_iff.2 ⟨hlen, hlen ▸ hbytes⟩
  exact readPayload_eq_ok.2 ⟨i, j, hst, hen, by omega, hread⟩

/-- What every sending operation does (R133): the frame written out, and no result. -/
theorem sending_eq_sent (p : List Byte) (s : State) : sending p s = .next (sent p s) := rfl

/-- A frame is five bytes longer than its payload (R73). -/
theorem sent_out_length (p : List Byte) (s : State) : (sent p s).out.length = s.out.length + (p.length + 5) := by
  simp only [sent, List.length_append, List.length_map, List.length_cons, List.length_nil]
  omega

/-! ### RX in each framing state -/

/-- The rule of each framing state (R75), so that a statement can name the one it is about. -/
def rxIn : FrameState → Byte → State → Step
  | .searchStart => rxSearchStart
  | .startPending => rxStartPending
  | .inPayload => rxInPayload
  | .endPending => rxEndPending
  | .checksumWait => rxChecksumWait

theorem rxByte_eq_rxIn (b : Byte) (s : State) : rxByte b s = rxIn s.fs b (startRun s) := by
  unfold rxByte
  cases s.fs <;> rfl

theorem andThen_rxAll_nil (r : Step) : andThen r (rxAll []) = r := by
  cases r <;> rfl

/-- RX outside the sink is one step of the framing state machine, by the rule of the state it is in (R75). -/
theorem exec_rx {s : State} (hsink : s.inSink = false) (b : Byte) : exec (.rx b) s = rxIn s.fs b (received s) := by
  have harm : exec (.rx b) s = receive [b] s := rfl
  rw [harm, receive, outsideSink_of_false hsink, rxAll_cons, andThen_rxAll_nil, rxByte_eq_rxIn]
  rfl

/-! ### The cases of the framing state machine -/

/-- A false start (R80). -/
theorem rxStartPending_of_ne {b : Byte} (h : b ≠ STX) (s : State) : rxStartPending b s = .next (searching s) :=
  if_neg h

/-- A payload byte that is no DLE (R84). -/
theorem rxInPayload_of_ne {b : Byte} {s : State} (hb : b ≠ DLE) (hfs : s.fs = .inPayload)
    (hlt : s.rdIdx < s.cfg.bufCap) :
    rxInPayload b s = .next
      (if s.rdIdx + 1 = s.cfg.bufCap then { searching s with buf := memWrite s.buf s.rdIdx b }
      else { s with rdIdx := s.rdIdx + 1, buf := memWrite s.buf s.rdIdx b }) := by
  rw [rxInPayload, if_neg hb, store_of_lt hlt, andThen_next, overflowCheck_of_not_checksumWait (by simp [hfs])]
  rfl

/-- A false end (R88): from here on it does not matter which byte it was. -/
theorem falseEnd_of_lt {s : State} (hlt : s.rdIdx < s.cfg.bufCap) (b : Byte) :
    falseEnd b s = .next
      (if s.rdIdx + 1 = s.cfg.bufCap then { searching s with buf := memWrite s.buf s.rdIdx b }
      else
        { s with
          fs := .inPayload, rdIdx := s.rdIdx + 1, enIdx := .searching, buf := memWrite s.buf s.rdIdx b }) := by
  rw [falseEnd, store_of_lt hlt, andThen_next, overflowCheck_of_not_checksumWait (by simp)]
  rfl

theorem rxEndPending_of_falseEnd {b : Byte} {s : State} (hetx : b ≠ ETX) (hdle : b ≠ DLE)
    (hstx : ¬(b = STX ∧ s.cfg.resyncOnDleStx = true)) : rxEndPending b s = falseEnd b s := by
  rw [rxEndPending, if_neg hetx, if_neg hdle, if_neg hstx]

theorem rxEndPending_stx_of_resync {s : State} (h : s.cfg.resyncOnDleStx = true) :
    rxEndPending STX s = restartFrame s := by
  rw [rxEndPending, if_neg (by decide), if_neg (by decide), if_pos ⟨rfl, h⟩]

/-- The restart of R87 writes the pair DLE STX to the front of the buffer. -/
theorem restartFrame_of_le {s : State} (h : 2 ≤ s.cfg.bufCap) :
    restartFrame s = .next
      { s with
        fs := .inPayload, rdIdx := 2, stIdx := .pos 2, enIdx := .searching,
        buf := memWrite (memWrite s.buf 0 DLE) 1 STX } := by
  have h0 : 0 < s.cfg.bufCap := by omega
  have h1 : 1 < s.cfg.bufCap := by omega
  rw [restartFrame, bufWrite_of_lt h0, andThen_next,
    bufWrite_of_lt (s := { s with buf := memWrite s.buf 0 DLE }) h1, andThen_next]

theorem memRead_restart (m : Memory) (a : Nat) :
    memRead (memWrite (memWrite m 0 DLE) 1 STX) a = if a = 0 then 0x10 else if a = 1 then 0x02 else memRead m a := by
  rw [memRead_memWrite, memRead_memWrite]
  split_ifs
  · omega
  all_goals rfl

/-- The matching checksum byte delivers the payload (R91). -/
theorem rxChecksumWait_of_match {s : State} {p : List Byte} (h : PayloadIs s p) :
    rxChecksumWait (checksum p) s = .next (deliver p s) := by
  simp [rxChecksumWait, readPayload_of_payloadIs h, checksumMatches]

/-! ### The statements -/

/-- Settles O4: the sum from any seed, at the seed `0x25`. -/
theorem checksumIsSeedPlusSumModulo256 : Obligations.ChecksumIsSeedPlusSumModulo256 :=
  fun p => toNat_foldl_add 0x25 p

/-- Settles O23: every byte but STX takes the false start's branch, DLE among them. -/
theorem falseStartAbandonsTheFrame : Obligations.FalseStartAbandonsTheFrame := by
  intro s b hfs hb hsink
  rw [exec_rx hsink, hfs, rxIn, rxStartPending_of_ne hb]

/-- Settles O25: the byte is written at the read cursor, and the overflow check decides between the two outcomes. -/
theorem byteInPayloadJoinsIt : Obligations.ByteInPayloadJoinsIt := by
  intro s b hfs hb hlt hsink
  refine ⟨memWrite s.buf s.rdIdx b, storedAt_memWrite s s.rdIdx b, ?_⟩
  rw [exec_rx hsink, hfs, rxIn, rxInPayload_of_ne (s := received s) hb hfs hlt]
  rfl

/-- Settles O29: what is left after R85, R86 and R87 is the false end. -/
theorem falseEndKeepsDleAndByteInThePayload : Obligations.FalseEndKeepsDleAndByteInThePayload := by
  intro s b hfs hetx hdle hstx hlt hsink
  refine ⟨memWrite s.buf s.rdIdx b, storedAt_memWrite s s.rdIdx b, ?_⟩
  rw [exec_rx hsink, hfs, rxIn, rxEndPending_of_falseEnd (s := received s) hetx hdle hstx,
    falseEnd_of_lt (s := received s) hlt]
  rfl

/-- Settles O28: with the switch on, the restart of R87; with it off, STX is a false end as O29 says. -/
theorem stxAfterDleRestartsTheFrameUnderResync : Obligations.StxAfterDleRestartsTheFrameUnderResync := by
  intro s hfs hlt hcap hsink
  constructor
  · intro hresync
    refine ⟨_, memRead_restart s.buf, ?_⟩
    have hrx : exec (.rx 0x02) s = rxEndPending STX (received s) := by rw [exec_rx hsink, hfs, rxIn, STX]
    rw [hrx, rxEndPending_stx_of_resync (s := received s) hresync, restartFrame_of_le (s := received s) hcap]
    rfl
  · intro hoff
    exact falseEndKeepsDleAndByteInThePayload s 0x02 hfs (by decide) (by decide) (by simp [hoff]) hlt hsink

/-- Settles O30: the payload read gives `p`, the comparison succeeds, and `deliver` is R91's three actions in order. -/
theorem matchingChecksumAcknowledgesAndDispatches : Obligations.MatchingChecksumAcknowledgesAndDispatches := by
  intro s p hfs hp hsink
  rw [exec_rx hsink, hfs, rxIn, rxChecksumWait_of_match (s := received s) hp]
  rfl

/-- Settles O52: SEND is the one sending operation, on the payload it is given. -/
theorem sendWritesTheEncodedFrame : Obligations.SendWritesTheEncodedFrame :=
  fun p s => ⟨sending_eq_sent p s, sent_out_length p s⟩

end Sys2Proof.Machine
end

section
/-! PROOFS. Polling (spec/42_polling.md): TICK and the wheel reads. First the rule of each operation, stated once; then the
statements, each assembled from these rules. -/

namespace Sys2Proof.Machine

/-! ### TICK -/

/-- TICK outside the sink latches every wheel and returns nothing (R119). -/
theorem exec_tick {s : State} (hsink : s.inSink = false) :
    exec .tick s = .next (returning .noResult (latchWheels s)) := by
  have harm : exec .tick s = execTick s := rfl
  rw [harm, execTick, outsideSink_of_false hsink]

/-- The guarded assignment of R119, with the test the other way round. -/
theorem latchWheel_eq (w : Wheel) :
    latchWheel w =
      { w with committed := if w.pending = w.committed then w.committed else w.pending, pending := 0 } := by
  rw [latchWheel, ite_not]

/-! ### The reads -/

/-- What every read does (R125, R153): it answers from the entry its handle names, or is refused. -/
def readEntry {α : Type} (entry : Option α) (answer : α → OpResult) (s : State) : Step :=
  match entry with
  | some e => .next (returning (answer e) s)
  | none => .next (refuse .readUnregistered s)

theorem exec_readDelta (i : Nat) (s : State) :
    exec (.readDelta i) s = readEntry s.wheels[i]? (fun w => .delta w.committed) s := by
  have harm : exec (.readDelta i) s = execReadDelta i s := rfl
  rw [harm, execReadDelta, wheelAt]
  cases s.wheels[i]? <;> rfl

theorem exec_wasTurned (i : Nat) (s : State) :
    exec (.wasTurned i) s = readEntry s.wheels[i]? (fun w => .turned (turned w)) s := by
  have harm : exec (.wasTurned i) s = execWasTurned i s := rfl
  rw [harm, execWasTurned, wheelAt]
  cases s.wheels[i]? <;> rfl

theorem readEntry_of_some {α : Type} {entry : Option α} {e : α} (h : entry = some e) (answer : α → OpResult)
    (s : State) : readEntry entry answer s = .next { s with result := answer e } := by
  rw [h]
  rfl

/-- A handle at or above the count names no entry. -/
theorem readEntry_of_length_le {α : Type} {entries : List α} {i : Nat} (h : entries.length ≤ i)
    (answer : α → OpResult) (s : State) :
    readEntry entries[i]? answer s = .next (refusedWith .readUnregistered s) := by
  rw [List.getElem?_eq_none h]
  rfl

/-- The turned status does not look at `pending` (R122). -/
theorem turned_eq_decide (w : Wheel) : turned w = decide (w.committed ≠ 0) := by
  by_cases h : w.committed = 0 <;> simp [turned, h]

/-! ### The statements -/

/-- Settles O44: the rule of TICK, with the latch of one wheel written out. -/
theorem tickLatchesEveryWheel : Obligations.TickLatchesEveryWheel := by
  intro s hsink
  have hlatch : s.wheels.map latchWheel = s.wheels.map _ := List.map_congr_left fun w _ => latchWheel_eq w
  rw [exec_tick hsink, ← hlatch]
  rfl

/-- Settles O47: both operations are the one read of a wheel, which its handle either names or does not. -/
theorem wheelReadsAnswerFromCommitted : Obligations.WheelReadsAnswerFromCommitted := by
  intro s i
  constructor
  · intro w hw
    rw [exec_readDelta, exec_wasTurned, readEntry_of_some hw, readEntry_of_some hw, turned_eq_decide]
    exact ⟨rfl, rfl⟩
  · intro hle
    rw [exec_readDelta, exec_wasTurned]
    exact ⟨readEntry_of_length_le hle _ s, readEntry_of_length_le hle _ s⟩

end Sys2Proof.Machine
end

section
/-! PROOFS. The controller (spec/43_controller.md): registration, the reserved op and UPDATE. First the rule of each
operation, stated once; for UPDATE, that RX completes from every state that meets the table of R21, and what it keeps;
then the statements, each assembled from these rules. -/

namespace Sys2Proof.Machine

/-! ### Registration and refusal -/

theorem refuse_eq_refusedWith (r : RefuseReason) (s : State) : refuse r s = refusedWith r s := rfl

/-- REG_BUTTON outside the sink (R129): the window, then the capacity. -/
theorem exec_regButton {s : State} (hsink : s.inSink = false) (id : Byte) :
    exec (.regButton id) s =
      if s.phase ≠ .setup then .next (refusedWith .registerAfterSetup s)
      else if s.buttons.length = s.cfg.maxButtons then .next (returning .fail s)
      else .next (returning (.ok s.buttons.length) (addButton id s)) := by
  have harm : exec (.regButton id) s = execRegButton id s := rfl
  rw [harm, execRegButton, outsideSink_of_false hsink]
  rfl

/-- REG_WHEEL outside the sink (R130): the window, then the selector, then the capacity. -/
theorem exec_regWheel {s : State} (hsink : s.inSink = false) (sel : Byte) :
    exec (.regWheel sel) s =
      if s.phase ≠ .setup then .next (refusedWith .registerAfterSetup s)
      else if legalSelector sel = false then .next (refusedWith .badWheelSelector s)
      else if s.wheels.length = s.cfg.maxWheels then .next (returning .fail s)
      else .next (returning (.ok s.wheels.length) (addWheel sel s)) := by
  have harm : exec (.regWheel sel) s = execRegWheel sel s := rfl
  rw [harm, execRegWheel, outsideSink_of_false hsink]
  rfl

theorem legalSelector_iff {sel : Byte} : legalSelector sel = true ↔ sel = 0x40 ∨ sel = 0x50 := by
  simp [legalSelector]

/-! ### The table of R21 -/

/-- The row of R21's table for a framing state, so that a proof can name the one it is in. -/
def FramingRow : FrameState → State → Prop
  | .searchStart => SearchStartRow
  | .startPending => StartPendingRow
  | .inPayload => InPayloadRow
  | .endPending => EndPendingRow
  | .checksumWait => ChecksumWaitRow

theorem framingInv_iff_framingRow (s : State) : FramingInv s ↔ FramingRow s.fs s := by
  unfold FramingInv
  cases s.fs <;> simp [FramingRow]

/-- To meet the table is to meet the row of the framing state the machine is known to be in. -/
theorem framingInv_of_row {s : State} {f : FrameState} (hfs : s.fs = f) (hrow : FramingRow f s) : FramingInv s := by
  rwa [framingInv_iff_framingRow, hfs]

/-- A byte stored above every listed index joins the list: nothing listed is overwritten. -/
theorem bufHolds_memWrite {s : State} {cells : List (Nat × Byte)} {i : Nat} (hbuf : BufHolds s cells)
    (hbelow : ∀ c ∈ cells, c.1 < i) (b : Byte) :
    BufHolds { s with buf := memWrite s.buf i b } (cells ++ [(i, b)]) := by
  intro c hc
  rcases List.mem_append.1 hc with hold | hnew
  · exact (memRead_memWrite_ne s.buf b (hbelow c hold).ne).trans (hbuf c hold)
  · rw [List.mem_singleton.1 hnew]
    exact memRead_memWrite_same s.buf i b

/-- What is listed first is held when the whole list is. -/
theorem bufHolds_left {s : State} {cells more : List (Nat × Byte)} (h : BufHolds s (cells ++ more)) :
    BufHolds s cells :=
  fun c hc => h c (List.mem_append_left more hc)

theorem framingInv_searching (s : State) : FramingInv (searching s) :=
  framingInv_of_row (f := .searchStart) rfl ⟨rfl, rfl, rfl⟩

/-! ### RX completes -/

/-- The end of a receiving operation from `s`: the table of R21 is met, and what RX does not write is as it was. -/
structure ReceivedFrom (s t : State) : Prop where
  framing : FramingInv t
  cfg : t.cfg = s.cfg
  result : t.result = s.result
  inSink : t.inSink = s.inSink

theorem receivedFrom_searching (s : State) : ReceivedFrom s (searching s) :=
  ⟨framingInv_searching s, rfl, rfl, rfl⟩

/-- The two ends of a stored byte (R89): the buffer is full and the frame abandoned, or there is room and the next
state `t` meets its row. -/
theorem receivedFrom_ite_full {s t : State} {m : Memory} (hlt : s.rdIdx < s.cfg.bufCap)
    (hroom : s.rdIdx + 1 < s.cfg.bufCap → ReceivedFrom s t) :
    ReceivedFrom s (if s.rdIdx + 1 = s.cfg.bufCap then { searching s with buf := m } else t) := by
  split_ifs with hfull
  · exact ⟨framingInv_searching { s with buf := m }, rfl, rfl, rfl⟩
  · exact hroom (by omega)

/-- The first byte of a frame (R76): a buffer of five bytes is not full after it. -/
theorem rxSearchStart_dle {s : State} (hrow : SearchStartRow s) (hcap : 5 ≤ s.cfg.bufCap) :
    rxSearchStart DLE s = .next
      { s with fs := .startPending, rdIdx := 1, stIdx := .tentative, buf := memWrite s.buf 0 DLE } := by
  obtain ⟨hrd, -, -⟩ := hrow
  rw [rxSearchStart, if_pos rfl, store_of_lt (by omega), andThen_next, overflowCheck_of_ne]
  · simp [hrd]
  · show s.rdIdx + 1 ≠ s.cfg.bufCap
    omega

/-- The second byte of a frame (R79). -/
theorem rxStartPending_stx {s : State} (hrow : StartPendingRow s) (hcap : 5 ≤ s.cfg.bufCap) :
    rxStartPending STX s = .next
      { s with fs := .inPayload, rdIdx := 2, stIdx := .pos 2, buf := memWrite s.buf 1 STX } := by
  obtain ⟨hrd, -, -, -⟩ := hrow
  rw [rxStartPending, if_pos rfl, store_of_lt (by omega), andThen_next, overflowCheck_of_ne]
  · simp [hrd]
  · show s.rdIdx + 1 ≠ s.cfg.bufCap
    omega

/-- A DLE in the payload (R83). -/
theorem rxInPayload_dle {s : State} (hlt : s.rdIdx < s.cfg.bufCap) :
    rxInPayload DLE s = .next
      (if s.rdIdx + 1 = s.cfg.bufCap then { searching s with buf := memWrite s.buf s.rdIdx DLE }
      else
        { s with
          fs := .endPending, rdIdx := s.rdIdx + 1, enIdx := .tentative, buf := memWrite s.buf s.rdIdx DLE }) := by
  rw [rxInPayload, if_pos rfl, store_of_lt hlt, andThen_next, overflowCheck_of_not_checksumWait (by simp)]
  rfl

/-- The confirmed end (R85). -/
theorem confirmEnd_of_lt {s : State} (hlt : s.rdIdx < s.cfg.bufCap) :
    confirmEnd s = .next
      { s with
        fs := .checksumWait, rdIdx := s.rdIdx + 1, enIdx := .pos (s.rdIdx - 1),
        buf := memWrite s.buf s.rdIdx ETX } := by
  rw [confirmEnd, store_of_lt (by exact hlt), andThen_next]

/-- The cursors of the checksum step lie in the buffer (R21, R90). -/
theorem readPayload_of_checksumWaitRow {s : State} (hrow : ChecksumWaitRow s) : ∃ p, readPayload s = .ok p := by
  obtain ⟨hrd, hcap, hst, hen, -⟩ := hrow
  exact ⟨_, readPayload_eq_ok.2 ⟨2, s.rdIdx - 2, hst, hen, by omega, rfl⟩⟩

theorem rxSearchStart_completes {s : State} (hcap : 5 ≤ s.cfg.bufCap) (hfs : s.fs = .searchStart)
    (hrow : SearchStartRow s) (b : Byte) : ∃ t, rxSearchStart b s = .next t ∧ ReceivedFrom s t := by
  by_cases hdle : b = DLE
  · subst hdle
    refine ⟨_, rxSearchStart_dle hrow hcap, framingInv_of_row (f := .startPending) rfl ?_, rfl, rfl, rfl⟩
    obtain ⟨-, -, hen⟩ := hrow
    exact ⟨rfl, rfl, hen, by simp⟩
  · by_cases hack : b = ACK
    · refine ⟨{ s with rdIdx := 0 }, by rw [rxSearchStart, if_neg hdle, if_pos hack], ?_, rfl, rfl, rfl⟩
      obtain ⟨-, hst, hen⟩ := hrow
      exact framingInv_of_row hfs ⟨rfl, hst, hen⟩
    · exact ⟨s, by rw [rxSearchStart, if_neg hdle, if_neg hack], framingInv_of_row hfs hrow, rfl, rfl, rfl⟩

theorem rxStartPending_completes {s : State} (hcap : 5 ≤ s.cfg.bufCap) (hrow : StartPendingRow s) (b : Byte) :
    ∃ t, rxStartPending b s = .next t ∧ ReceivedFrom s t := by
  by_cases hstx : b = STX
  · subst hstx
    refine ⟨_, rxStartPending_stx hrow hcap, framingInv_of_row (f := .inPayload) rfl ?_, rfl, rfl, rfl⟩
    obtain ⟨-, -, hen, hbuf⟩ := hrow
    have hroom : 2 < s.cfg.bufCap := by omega
    exact ⟨le_rfl, hroom, rfl, hen, bufHolds_memWrite hbuf (by simp) STX⟩
  · exact ⟨_, rxStartPending_of_ne hstx s, receivedFrom_searching s⟩

theorem rxInPayload_completes {s : State} (hfs : s.fs = .inPayload) (hrow : InPayloadRow s) (b : Byte) :
    ∃ t, rxInPayload b s = .next t ∧ ReceivedFrom s t := by
  obtain ⟨hrd, hlt, hst, hen, hbuf⟩ := hrow
  have hstored : ∀ c, BufHolds { s with buf := memWrite s.buf s.rdIdx c } [(0, DLE), (1, STX), (s.rdIdx, c)] :=
    bufHolds_memWrite hbuf (by simp; omega)
  by_cases hdle : b = DLE
  · subst hdle
    refine ⟨_, rxInPayload_dle hlt, receivedFrom_ite_full hlt fun hroom => ⟨?_, rfl, rfl, rfl⟩⟩
    exact framingInv_of_row (f := .endPending) rfl ⟨Nat.succ_le_succ hrd, hroom, hst, rfl, hstored DLE⟩
  · refine ⟨_, rxInPayload_of_ne hdle hfs hlt, receivedFrom_ite_full hlt fun hroom => ⟨?_, rfl, rfl, rfl⟩⟩
    have hhead := bufHolds_left (cells := [(0, DLE), (1, STX)]) (hstored b)
    exact framingInv_of_row (f := .inPayload) hfs ⟨Nat.le_succ_of_le hrd, hroom, hst, hen, hhead⟩

theorem falseEnd_completes {s : State} (hrow : EndPendingRow s) (b : Byte) :
    ∃ t, falseEnd b s = .next t ∧ ReceivedFrom s t := by
  obtain ⟨hrd, hlt, hst, -, hbuf⟩ := hrow
  have hstored := bufHolds_memWrite hbuf (i := s.rdIdx) (by simp; omega) b
  refine ⟨_, falseEnd_of_lt hlt b, receivedFrom_ite_full hlt fun hroom => ⟨?_, rfl, rfl, rfl⟩⟩
  have hrd' : 2 ≤ s.rdIdx + 1 := by omega
  have hhead := bufHolds_left (cells := [(0, DLE), (1, STX)]) hstored
  exact framingInv_of_row (f := .inPayload) rfl ⟨hrd', hroom, hst, rfl, hhead⟩

theorem confirmEnd_completes {s : State} (hrow : EndPendingRow s) :
    ∃ t, confirmEnd s = .next t ∧ ReceivedFrom s t := by
  obtain ⟨hrd, hlt, hst, -, hbuf⟩ := hrow
  have hstored := bufHolds_memWrite hbuf (i := s.rdIdx) (by simp; omega) ETX
  refine ⟨_, confirmEnd_of_lt hlt, framingInv_of_row (f := .checksumWait) rfl ?_, rfl, rfl, rfl⟩
  exact ⟨Nat.succ_le_succ hrd, hlt, hst, rfl, hstored⟩

theorem restartFrame_completes {s : State} (hcap : 5 ≤ s.cfg.bufCap) :
    ∃ t, restartFrame s = .next t ∧ ReceivedFrom s t := by
  have hroom : 2 < s.cfg.bufCap := by omega
  refine ⟨_, restartFrame_of_le hroom.le, framingInv_of_row (f := .inPayload) rfl ?_, rfl, rfl, rfl⟩
  have hdle : BufHolds { s with buf := memWrite s.buf 0 DLE } [(0, DLE)] := by simp
  exact ⟨le_rfl, hroom, rfl, rfl, bufHolds_memWrite hdle (by simp) STX⟩

theorem rxEndPending_completes {s : State} (hcap : 5 ≤ s.cfg.bufCap) (hfs : s.fs = .endPending)
    (hrow : EndPendingRow s) (b : Byte) : ∃ t, rxEndPending b s = .next t ∧ ReceivedFrom s t := by
  unfold rxEndPending
  split_ifs
  · exact confirmEnd_completes hrow
  · exact ⟨s, rfl, framingInv_of_row hfs hrow, rfl, rfl, rfl⟩
  · exact restartFrame_completes hcap
  · exact falseEnd_completes hrow b

theorem receivedFrom_deliver (p : List Byte) (s : State) : ReceivedFrom s (deliver p s) :=
  ⟨framingInv_searching _, by simp [deliver], by simp [deliver], by simp [deliver]⟩

theorem rxChecksumWait_completes {s : State} (hrow : ChecksumWaitRow s) (b : Byte) :
    ∃ t, rxChecksumWait b s = .next t ∧ ReceivedFrom s t := by
  obtain ⟨p, hp⟩ := readPayload_of_checksumWaitRow hrow
  simp only [rxChecksumWait, hp]
  split_ifs
  · exact ⟨_, rfl, receivedFrom_deliver p s⟩
  · exact ⟨_, rfl, receivedFrom_searching s⟩

/-- RX of a byte never stops in a state that meets the table of R21, and it ends in such a state (R21, R38, R146). -/
theorem rxByte_completes {s : State} (hcap : 5 ≤ s.cfg.bufCap) (hframing : FramingInv s) (b : Byte) :
    ∃ t, rxByte b s = .next t ∧ ReceivedFrom s t := by
  have hrow : FramingRow s.fs (startRun s) := (framingInv_iff_framingRow (startRun s)).1 hframing
  suffices h : ∃ t, rxIn s.fs b (startRun s) = .next t ∧ ReceivedFrom (startRun s) t by
    obtain ⟨t, ht, hkept⟩ := h
    exact ⟨t, (rxByte_eq_rxIn b s).trans ht, hkept.framing, hkept.cfg, hkept.result, hkept.inSink⟩
  cases hfs : s.fs <;> rw [hfs] at hrow
  case searchStart => exact rxSearchStart_completes (s := startRun s) hcap hfs hrow b
  case startPending => exact rxStartPending_completes (s := startRun s) hcap hrow b
  case inPayload => exact rxInPayload_completes (s := startRun s) hfs hrow b
  case endPending => exact rxEndPending_completes (s := startRun s) hcap hfs hrow b
  case checksumWait => exact rxChecksumWait_completes (s := startRun s) hrow b

/-! ### UPDATE -/

theorem exec_rx_eq_rxByte {s : State} (hsink : s.inSink = false) (b : Byte) :
    exec (.rx b) s = rxByte b (returning .noResult s) := by
  rw [exec_rx hsink, rxByte_eq_rxIn]
  rfl

/-- UPDATE outside the sink (R145). -/
theorem exec_update {s : State} (hsink : s.inSink = false) (bs : List Byte) :
    exec (.update bs) s = andThen (rxAll bs (returning .noResult s)) fun t => .next (latchWheels t) := by
  have harm : exec (.update bs) s = execUpdate bs s := rfl
  rw [harm, execUpdate, outsideSink_of_false hsink]

/-- RX operations in a row are the receiving part of UPDATE. Only the model's field `result` can differ: with no byte
at all it is not written yet. -/
theorem runInstrs_rx_completes (bs : List Byte) {s : State} (hcap : 5 ≤ s.cfg.bufCap) (hframing : FramingInv s)
    (hsink : s.inSink = false) :
    ∃ t, runInstrs (bs.map .rx) s = .next t ∧ rxAll bs (returning .noResult s) = .next (returning .noResult t) ∧
      t.inSink = false := by
  induction bs generalizing s with
  | nil => exact ⟨s, rfl, rfl, hsink⟩
  | cons b bs ih =>
    obtain ⟨u, hu, hkept⟩ := rxByte_completes (s := returning .noResult s) hcap hframing b
    have hresult : returning .noResult u = u := by
      rw [show OpResult.noResult = u.result from hkept.result.symm]
      rfl
    obtain ⟨t, hrun, hall, htsink⟩ := ih (s := u) (hkept.cfg ▸ hcap) hkept.framing (hkept.inSink.trans hsink)
    refine ⟨t, ?_, ?_, htsink⟩
    · rw [List.map_cons, runInstrs, exec_rx_eq_rxByte hsink, hu, andThen_next, hrun]
    · rw [rxAll_cons, hu, andThen_next, ← hresult, hall]

/-! ### The statements -/

/-- Settles O57: the RX operations complete as the receiving part of UPDATE does, and the tick after them is the same
latch. -/
theorem updateReceivesEveryByteThenTicks : Obligations.UpdateReceivesEveryByteThenTicks := by
  intro bs s hinv hsink
  obtain ⟨⟨hcap, -⟩, hframing, -, -⟩ := hinv
  obtain ⟨t, hrun, hall, htsink⟩ := runInstrs_rx_completes bs hcap hframing hsink
  refine ⟨t, _, hrun, exec_tick htsink, ?_⟩
  rw [exec_update hsink, hall, andThen_next]
  rfl

/-- Settles O50: one branch of the rule of REG_BUTTON for each outcome. -/
theorem registerButtonAppendsFailsOrIsRefused : Obligations.RegisterButtonAppendsFailsOrIsRefused := by
  intro id s hsink
  rw [exec_regButton hsink]
  refine ⟨fun hphase hroom => ?_, fun hphase hfull => ?_, fun hphase => ?_⟩
  · rw [if_neg (by simp [hphase]), if_neg hroom]
    rfl
  · rw [if_neg (by simp [hphase]), if_pos hfull]
    rfl
  · rw [if_pos (by simp [hphase])]

/-- Settles O51: one branch of the rule of REG_WHEEL for each outcome. -/
theorem registerWheelAppendsFailsOrIsRefused : Obligations.RegisterWheelAppendsFailsOrIsRefused := by
  intro sel s hsink
  rw [exec_regWheel hsink]
  refine ⟨fun hphase hsel hroom => ?_, fun hphase hsel hfull => ?_, fun hphase h40 h50 => ?_, fun hphase => ?_⟩
  · rw [if_neg (by simp [hphase]), if_neg (by simp [legalSelector_iff.2 hsel]), if_neg hroom]
    rfl
  · rw [if_neg (by simp [hphase]), if_neg (by simp [legalSelector_iff.2 hsel]), if_pos hfull]
    rfl
  · have hbad : legalSelector sel = false := Bool.eq_false_iff.2 fun h => (legalSelector_iff.1 h).elim h40 h50
    rw [if_neg (by simp [hphase]), if_pos hbad]
  · rw [if_pos (by simp [hphase])]

/-- Settles O58: the reserved op is the refusal and nothing else. -/
theorem reservedOpIsRefused : Obligations.ReservedOpIsRefused :=
  fun s => congrArg Host.Outcome.next (refuse_eq_refusedWith .reservedOperation s)

end Sys2Proof.Machine
end

section
/-! PROOFS. The decoder and the encoder (spec/30_encoding.md): each is the other's inverse. First what every part of the
decoder answers, stated once and in both directions; then the statements, one case for each row of the opcode table. -/

namespace Sys2Proof

/-! ### Operands -/

theorem noOperand_eq_ok {op : Nat} {i j : Instr} {args : List Nat} :
    noOperand op i args = .ok j ↔ args = [] ∧ i = j := by
  cases args <;> simp [noOperand]

theorem indexOperand_eq_ok {op : Nat} {f : Nat → Instr} {args : List Nat} {j : Instr} :
    indexOperand op f args = .ok j ↔ ∃ n, args = [n] ∧ f n = j := by
  match args with
  | [] => simp [indexOperand]
  | [n] => simp [indexOperand]
  | _ :: _ :: _ => simp [indexOperand]

/-- A byte operand that decodes is the number its byte is encoded as. -/
theorem decodeByte_eq_ok {n : Nat} {b : Byte} : decodeByte n = .ok b ↔ n = b.toNat := by
  constructor
  · exact fun h => (toNat_of_decodeByte h).symm
  · rintro rfl
    exact decodeByte_toNat b

theorem decodeBytes_eq_ok {ns : List Nat} {bs : List Byte} : decodeBytes ns = .ok bs ↔ ns = bs.map BitVec.toNat := by
  constructor
  · exact fun h => (map_toNat_of_decodeBytes h).symm
  · rintro rfl
    exact decodeBytes_map_toNat bs

theorem map_eq_ok {α β : Type} {r : Except DecodeError α} {f : α → β} {y : β} :
    r.map f = .ok y ↔ ∃ x, r = .ok x ∧ f x = y := by
  cases r <;> simp [Except.map]

theorem byteOperand_eq_ok {op : Nat} {f : Byte → Instr} {args : List Nat} {j : Instr} :
    byteOperand op f args = .ok j ↔ ∃ b : Byte, args = [b.toNat] ∧ f b = j := by
  match args with
  | [] => simp [byteOperand]
  | [n] => simp [byteOperand, map_eq_ok, decodeByte_eq_ok]
  | _ :: _ :: _ => simp [byteOperand]

theorem twoByteOperands_eq_ok {op : Nat} {f : Byte → Byte → Instr} {args : List Nat} {j : Instr} :
    twoByteOperands op f args = .ok j ↔ ∃ a b : Byte, args = [a.toNat, b.toNat] ∧ f a b = j := by
  match args with
  | [] => simp [twoByteOperands]
  | [_] => simp [twoByteOperands]
  | [n, m] =>
    constructor
    · intro h
      simp only [twoByteOperands] at h
      split at h
      · rename_i a b ha hb
        rw [decodeByte_eq_ok.1 ha, decodeByte_eq_ok.1 hb]
        exact ⟨a, b, rfl, Except.ok.inj h⟩
      · cases h
      · cases h
    · rintro ⟨a, b, hargs, hj⟩
      cases hargs
      simp [twoByteOperands, hj]
  | _ :: _ :: _ :: _ => simp [twoByteOperands]

theorem listOperand_eq_ok {op : Nat} {f : List Byte → Instr} {args : List Nat} {j : Instr} :
    listOperand op f args = .ok j ↔ ∃ bs : List Byte, args = bs.length :: bs.map BitVec.toNat ∧ f bs = j := by
  cases args with
  | nil => simp [listOperand]
  | cons n ns =>
    simp only [listOperand]
    split_ifs with hn
    · simp only [map_eq_ok, decodeBytes_eq_ok, List.cons.injEq]
      refine exists_congr fun bs => and_congr_left fun _ => ⟨fun hns => ⟨?_, hns⟩, fun hns => hns.2⟩
      rw [← hn, hns, List.length_map]
    · simp only [List.cons.injEq, false_iff]
      rintro ⟨bs, ⟨hlen, hns⟩, -⟩
      exact hn (by rw [hlen, hns, List.length_map])

/-! ### The wire -/

theorem decodeFrameTail_eq_ok {bs : List Byte} {i : Instr} :
    decodeFrameTail bs = .ok i ↔ ∃ body cs, bs = cs :: ETX :: DLE :: body.reverse ∧ i = .frame body cs := by
  match bs with
  | [] => simp [decodeFrameTail]
  | [_] => simp [decodeFrameTail]
  | [_, _] => simp [decodeFrameTail]
  | cs :: etx :: dle :: ydob =>
    simp only [decodeFrameTail]
    split_ifs with h
    · obtain ⟨rfl, rfl⟩ := h
      constructor
      · intro hi
        exact ⟨ydob.reverse, cs, by simp, (Except.ok.inj hi).symm⟩
      · rintro ⟨body, cs', hbs, rfl⟩
        obtain ⟨rfl, rfl⟩ : cs = cs' ∧ ydob = body.reverse := by simpa using hbs
        rw [List.reverse_reverse]
    · simp only [false_iff]
      rintro ⟨body, cs', hbs, -⟩
      exact h (by simp_all)

theorem decodeWireFrame_eq_ok {bs : List Byte} {i : Instr} :
    decodeWireFrame bs = .ok i ↔ ∃ body cs, bs = [DLE, STX] ++ body ++ [DLE, ETX, cs] ∧ i = .frame body cs := by
  match bs with
  | [] => simp [decodeWireFrame]
  | [_] => simp [decodeWireFrame]
  | dle :: stx :: rest =>
    have hrest : ∀ (body : List Byte) cs, rest.reverse = cs :: ETX :: DLE :: body.reverse ↔
        rest = body ++ [DLE, ETX, cs] := fun body cs => by
      rw [List.reverse_eq_iff]
      simp
    simp only [decodeWireFrame]
    split_ifs with h
    · obtain ⟨rfl, rfl⟩ := h
      simp [decodeFrameTail_eq_ok, hrest]
    · simp only [false_iff]
      rintro ⟨body, cs, hbs, -⟩
      exact h (by simp_all)

theorem decodeWireByte_encodes {b : Byte} {i : Instr} (h : decodeWireByte b = .ok i) :
    i.wellFormed = true ∧ encode i = .wireByte b := by
  unfold decodeWireByte at h
  split_ifs at h with hdle hstx hetx hack <;> cases h
  · exact ⟨rfl, by rw [hdle, encode]⟩
  · exact ⟨rfl, by rw [hstx, encode]⟩
  · exact ⟨rfl, by rw [hetx, encode]⟩
  · exact ⟨rfl, by rw [hack, encode]⟩

/-! ### Payloads -/

theorem qualifies79_eq_false {a : Byte} : qualifies79 a = false ↔ a ≠ 0x38 ∧ a ≠ 0xFF := by
  simp only [qualifies79, Bool.or_eq_false_iff, beq_eq_false_iff_ne]

theorem needsArgument_eq_false {op : Byte} :
    needsArgument op = false ↔
      op ≠ 0x30 ∧ op ≠ 0x31 ∧ op ≠ 0x40 ∧ op ≠ 0x41 ∧ op ≠ 0x50 ∧ op ≠ 0x51 := by
  simp only [needsArgument, Bool.or_eq_false_iff, beq_eq_false_iff_ne, and_assoc]

theorem isDropped_cons {op : Byte} {args : List Byte} :
    isDropped (op :: args) = true ↔ (op ≠ 0x79 ∧ op ≠ 0x35) ∧ (needsArgument op = false ∨ args = []) := by
  simp only [isDropped, Bool.and_eq_true, Bool.or_eq_true, Bool.not_eq_true', beq_eq_false_iff_ne, List.isEmpty_iff]

theorem setLight_wellFormed {on : Bool} {id : Byte} : (Instr.setLight on id).wellFormed = true ↔ id ≠ 0x10 := by
  simp only [Instr.wellFormed, Bool.not_eq_true', beq_eq_false_iff_ne]

theorem decodeNotify79_of_not_qualifies {a : Byte} (h : qualifies79 a = false) (extra : List Byte) :
    decodeNotify79 (a :: extra) = .drop79 (a :: extra) := by
  obtain ⟨h38, hFF⟩ := qualifies79_eq_false.1 h
  rw [decodeNotify79, if_neg h38, if_neg hFF]

theorem decodeNotify79_encodes (args : List Byte) :
    (decodeNotify79 args).wellFormed = true ∧ encode (decodeNotify79 args) = .inbound (0x79 :: args) := by
  cases args with
  | nil => exact ⟨rfl, rfl⟩
  | cons a extra =>
    rw [decodeNotify79]
    split_ifs with h38 hFF
    · exact ⟨rfl, by rw [h38, encode]⟩
    · exact ⟨rfl, by rw [hFF, encode]⟩
    · exact ⟨by rw [Instr.wellFormed, qualifies79_eq_false.2 ⟨h38, hFF⟩, Bool.not_false], rfl⟩

/-- A dropped payload's opcode is none that a row without a condition takes, and one that needs an argument lacks it. -/
theorem decodeInbound_of_isDropped {p : List Byte} (h : isDropped p = true) : decodeInbound p = .drop p := by
  cases p with
  | nil => rfl
  | cons op args =>
    obtain ⟨⟨h79, h35⟩, hneeds | hnil⟩ := isDropped_cons.1 h
    · obtain ⟨h30, h31, h40, h41, h50, h51⟩ := needsArgument_eq_false.1 hneeds
      simp only [decodeInbound, if_neg h79, if_neg h35, if_neg h30, if_neg h31, if_neg h40, if_neg h41, if_neg h50,
        if_neg h51]
    · rw [hnil]
      simp only [decodeInbound, if_neg h79, if_neg h35, withArgument, ite_self]

/-- A command that needs `payload[1]` is read back with it, and is a drop without it. -/
theorem withArgument_encodes {op : Byte} (hop : needsArgument op = true) {command : Byte → List Byte → Instr}
    (hwf : ∀ a extra, (command a extra).wellFormed = true)
    (henc : ∀ a extra, encode (command a extra) = .inbound (op :: a :: extra)) (args : List Byte) :
    (withArgument op args command).wellFormed = true ∧ encode (withArgument op args command) = .inbound (op :: args) := by
  cases args with
  | nil =>
    have h79 : op ≠ 0x79 := by rintro rfl; exact absurd hop (by decide)
    have h35 : op ≠ 0x35 := by rintro rfl; exact absurd hop (by decide)
    exact ⟨isDropped_cons.2 ⟨⟨h79, h35⟩, .inr rfl⟩, rfl⟩
  | cons a extra => exact ⟨hwf a extra, henc a extra⟩

theorem decodeInbound_encodes (p : List Byte) :
    (decodeInbound p).wellFormed = true ∧ encode (decodeInbound p) = .inbound p := by
  cases p with
  | nil => exact ⟨rfl, rfl⟩
  | cons op args =>
    rw [decodeInbound]
    split_ifs with h79 h35 h30 h31 h40 h41 h50 h51
    · rw [h79]; exact decodeNotify79_encodes args
    · rw [h35]; exact ⟨rfl, rfl⟩
    · rw [h30]; exact withArgument_encodes rfl (fun _ _ => rfl) (fun _ _ => rfl) args
    · rw [h31]; exact withArgument_encodes rfl (fun _ _ => rfl) (fun _ _ => rfl) args
    · rw [h40]; exact withArgument_encodes rfl (fun _ _ => rfl) (fun _ _ => rfl) args
    · rw [h41]; exact withArgument_encodes rfl (fun _ _ => rfl) (fun _ _ => rfl) args
    · rw [h50]; exact withArgument_encodes rfl (fun _ _ => rfl) (fun _ _ => rfl) args
    · rw [h51]; exact withArgument_encodes rfl (fun _ _ => rfl) (fun _ _ => rfl) args
    · have hneeds := needsArgument_eq_false.2 ⟨h30, h31, h40, h41, h50, h51⟩
      exact ⟨isDropped_cons.2 ⟨⟨h79, h35⟩, .inl hneeds⟩, rfl⟩

theorem decodeOutbound_setLightGroup (on : Bool) :
    decodeOutbound [0x68, encodeOnOff on, 0x10, 0x10] = .ok (.setLightGroup on) := by
  rw [decodeOutbound, if_pos ⟨rfl, rfl, rfl⟩, decodeOnOff_encodeOnOff]
  rfl

theorem decodeOutbound_setLight {id : Byte} (hid : id ≠ 0x10) (on : Bool) :
    decodeOutbound [0x68, encodeOnOff on, id] = .ok (.setLight on id) := by
  rw [decodeOutbound, if_neg fun h => absurd h.1 (by decide), if_pos ⟨rfl, hid⟩, decodeOnOff_encodeOnOff]
  rfl

/-- The outbound payloads by their length: no builder's payload has another. -/
theorem decodeOutbound_encodes {p : List Byte} {i : Instr} (h : decodeOutbound p = .ok i) :
    i.wellFormed = true ∧ encode i = .outbound p := by
  match p with
  | [] => cases h
  | [_] => cases h
  | [op, x] =>
    simp only [decodeOutbound] at h
    split_ifs at h with h60 h12 h11 <;> cases h
    · exact ⟨rfl, by rw [h60, encode]⟩
    · exact ⟨rfl, by rw [h12.1, h12.2, encode]⟩
    · exact ⟨rfl, by rw [h11.1, h11.2, encode]⟩
  | [op, x, y] =>
    simp only [decodeOutbound] at h
    split_ifs at h with h64 h68
    · cases h
      exact ⟨rfl, by rw [h64.1, h64.2, encode]⟩
    · obtain ⟨on, hon, rfl⟩ := map_eq_ok.1 h
      exact ⟨setLight_wellFormed.2 h68.2, by rw [h68.1, encode, encodeOnOff_of_decodeOnOff hon]⟩
  | [op, x, y, z] =>
    simp only [decodeOutbound] at h
    split_ifs at h with h68
    obtain ⟨hop, hy, hz⟩ := h68
    obtain ⟨on, hon, rfl⟩ := map_eq_ok.1 h
    exact ⟨rfl, by rw [hop, hy, hz, encode, encodeOnOff_of_decodeOnOff hon]⟩
  | _ :: _ :: _ :: _ :: _ :: _ => cases h

/-! ### Operation words -/

theorem noOperand_encodes {op : Nat} {i j : Instr} {args : List Nat} (h : noOperand op i args = .ok j)
    (hwf : i.wellFormed = true) (henc : encode i = .iface [op]) :
    j.wellFormed = true ∧ encode j = .iface (op :: args) := by
  obtain ⟨rfl, rfl⟩ := noOperand_eq_ok.1 h
  exact ⟨hwf, henc⟩

theorem indexOperand_encodes {op : Nat} {f : Nat → Instr} {j : Instr} {args : List Nat}
    (h : indexOperand op f args = .ok j) (hwf : ∀ n, (f n).wellFormed = true)
    (henc : ∀ n, encode (f n) = .iface [op, n]) : j.wellFormed = true ∧ encode j = .iface (op :: args) := by
  obtain ⟨n, rfl, rfl⟩ := indexOperand_eq_ok.1 h
  exact ⟨hwf n, henc n⟩

theorem byteOperand_encodes {op : Nat} {f : Byte → Instr} {j : Instr} {args : List Nat}
    (h : byteOperand op f args = .ok j) (hwf : ∀ b, (f b).wellFormed = true)
    (henc : ∀ b, encode (f b) = byteWord op b) : j.wellFormed = true ∧ encode j = .iface (op :: args) := by
  obtain ⟨b, rfl, rfl⟩ := byteOperand_eq_ok.1 h
  exact ⟨hwf b, henc b⟩

theorem listOperand_encodes {op : Nat} {f : List Byte → Instr} {j : Instr} {args : List Nat}
    (h : listOperand op f args = .ok j) (hwf : ∀ bs, (f bs).wellFormed = true)
    (henc : ∀ bs, encode (f bs) = listWord op bs) : j.wellFormed = true ∧ encode j = .iface (op :: args) := by
  obtain ⟨bs, rfl, rfl⟩ := listOperand_eq_ok.1 h
  exact ⟨hwf bs, henc bs⟩

theorem decodeIface_encodes {w : List Nat} {i : Instr} (h : decodeIface w = .ok i) :
    i.wellFormed = true ∧ encode i = .iface w := by
  cases w with
  | nil => cases h
  | cons op args =>
    simp only [decodeIface] at h
    split at h
    case h_1 => exact noOperand_encodes h rfl rfl
    case h_2 => exact byteOperand_encodes h (fun _ => rfl) fun _ => rfl
    case h_3 => exact noOperand_encodes h rfl rfl
    case h_4 => exact byteOperand_encodes h (fun _ => rfl) fun _ => rfl
    case h_5 => exact byteOperand_encodes h (fun _ => rfl) fun _ => rfl
    case h_6 => exact listOperand_encodes h (fun _ => rfl) fun _ => rfl
    case h_7 => exact indexOperand_encodes h (fun _ => rfl) fun _ => rfl
    case h_8 => exact indexOperand_encodes h (fun _ => rfl) fun _ => rfl
    case h_9 => exact indexOperand_encodes h (fun _ => rfl) fun _ => rfl
    case h_10 => exact byteOperand_encodes h (fun _ => rfl) fun _ => rfl
    case h_11 => exact byteOperand_encodes h (fun _ => rfl) fun _ => rfl
    case h_12 =>
      obtain ⟨a, b, rfl, rfl⟩ := twoByteOperands_eq_ok.1 h
      exact ⟨rfl, rfl⟩
    case h_13 => exact noOperand_encodes h rfl rfl
    case h_14 => exact noOperand_encodes h rfl rfl
    case h_15 => exact listOperand_encodes h (fun _ => rfl) fun _ => rfl
    case h_16 => exact noOperand_encodes h rfl rfl
    case h_17 => cases h

theorem decodeIface_byteWord {op : Nat} {f : Byte → Instr} (b : Byte)
    (harm : ∀ args, decode (.iface (op :: args)) = byteOperand op f args) : decode (byteWord op b) = .ok (f b) :=
  (harm _).trans (byteOperand_eq_ok.2 ⟨b, rfl, rfl⟩)

theorem decodeIface_listWord {op : Nat} {f : List Byte → Instr} (bs : List Byte)
    (harm : ∀ args, decode (.iface (op :: args)) = listOperand op f args) : decode (listWord op bs) = .ok (f bs) :=
  (harm _).trans (listOperand_eq_ok.2 ⟨bs, rfl, rfl⟩)

/-! ### The statements -/

/-- Settles O1: one case for each row; a row with operands or a condition goes through the rule of its part of the
decoder. -/
theorem decodeReadsBackEveryEncoding : Obligations.DecodeReadsBackEveryEncoding := by
  intro i hwf
  cases i with
  | dle | stx | etx | ack => rfl
  | frame body cs => exact decodeWireFrame_eq_ok.2 ⟨body, cs, rfl, rfl⟩
  | notify7938 extra | notify79FF extra | notify35 extra => rfl
  | btnSet a extra | btnClr a extra | whl40Pos a extra | whl40Neg a extra | whl50Pos a extra | whl50Neg a extra => rfl
  | drop79 args =>
    cases args with
    | nil => rfl
    | cons a extra =>
      have ha : qualifies79 a = false := by simpa [Instr.wellFormed] using hwf
      exact congrArg Except.ok (decodeNotify79_of_not_qualifies ha extra)
  | drop p => exact congrArg Except.ok (decodeInbound_of_isDropped hwf)
  | setIllumination b | setHighlight b | enableKeys | shutdown => rfl
  | setLightGroup on => exact decodeOutbound_setLightGroup on
  | setLight on id =>
    have hid : id ≠ 0x10 := setLight_wellFormed.1 hwf
    exact decodeOutbound_setLight hid on
  | reset | tick | enableKeysOp | shutdownOp | reservedF => rfl
  | rx b | regButton b | regWheel b | setIlluminationOp b | setHighlightOp b =>
    exact decodeIface_byteWord b fun _ => rfl
  | send bs | update bs => exact decodeIface_listWord bs fun _ => rfl
  | readLevel n | readDelta n | wasTurned n => rfl
  | setLightOp id on => exact (twoByteOperands_eq_ok (op := 0xB)).2 ⟨id, on, rfl, rfl⟩

/-- Settles O2: one case for each format of an item. -/
theorem everyDecodedItemIsItsInstructionsEncoding : Obligations.EveryDecodedItemIsItsInstructionsEncoding := by
  intro it i h
  cases it with
  | wireByte b => exact decodeWireByte_encodes h
  | wireFrame bs =>
    obtain ⟨body, cs, rfl, rfl⟩ := decodeWireFrame_eq_ok.1 h
    exact ⟨rfl, rfl⟩
  | inbound p => exact Except.ok.inj h ▸ decodeInbound_encodes p
  | outbound p => exact decodeOutbound_encodes h
  | iface w => exact decodeIface_encodes h

/-- Settles O3: each word is a concrete item, which the decoder evaluates. -/
theorem sampleWordsDecodeAsTheSpecWritesThem : Obligations.SampleWordsDecodeAsTheSpecWritesThem := by
  unfold Obligations.SampleWordsDecodeAsTheSpecWritesThem
  decide

end Sys2Proof
end

section
/-! PROOFS. Deltas and commands: the arithmetic of a turn (spec/00_scope.md section 6, spec/30_encoding.md section 2), the
inbound rows of the dispatcher (spec/41_dispatcher.md), and what turns and ticks in a row leave in a wheel
(spec/42_polling.md section 4). First the rule of each operation; then the statements. -/

namespace Sys2Proof.Machine

/-! ### Deltas -/

/-- The wrapped value is the one integer of the width's range that is congruent to the unwrapped one. -/
theorem wrapDelta_eq_iff {w : Nat} (hw : 1 ≤ w) {v u : Int} :
    wrapDelta w v = u ↔ DeltaFits w u ∧ (v - u) % 2 ^ w = 0 := by
  obtain ⟨k, rfl⟩ : ∃ k, w = k + 1 := ⟨w - 1, by omega⟩
  have hwidth : ((2 ^ (k + 1) : Nat) : Int) = 2 * 2 ^ k := by push_cast; ring
  have hpow : (2 : Int) ^ (k + 1) = 2 * 2 ^ k := by ring
  rw [wrapDelta, Int.bmod_eq_iff (Nat.two_pow_pos _), dvd_sub_comm, Int.dvd_iff_emod_eq_zero, DeltaFits,
    Nat.add_sub_cancel, hwidth, hpow, and_assoc]
  omega

theorem wrapDelta_fits {w : Nat} (hw : 1 ≤ w) (v : Int) : DeltaFits w (wrapDelta w v) :=
  ((wrapDelta_eq_iff hw).1 rfl).1

theorem wrapDelta_of_fits {w : Nat} (hw : 1 ≤ w) {v : Int} (hv : DeltaFits w v) : wrapDelta w v = v :=
  (wrapDelta_eq_iff hw).2 ⟨hv, by simp⟩

/-- Wrapping after each of two additions is wrapping once. -/
theorem wrapDelta_wrapDelta_add (w : Nat) (v d : Int) : wrapDelta w (wrapDelta w v + d) = wrapDelta w (v + d) :=
  Int.bmod_add_bmod

theorem wheelArg_eq (c : Config) (a : Byte) :
    wheelArg c a =
      if c.wheelArgSigned = true ∧ 128 ≤ a.toNat then (a.toNat : Int) - 256 else (a.toNat : Int) := by
  cases hsigned : c.wheelArgSigned with
  | false => simp [wheelArg, hsigned]
  | true =>
    simp only [wheelArg, hsigned, if_true, true_and, BitVec.toInt_eq_toNat_cond]
    split_ifs <;> omega

/-- No turn is longer than 255, in either direction and under either reading of its argument. -/
theorem wheelArg_bounded (c : Config) (a : Byte) : -255 ≤ wheelArg c a ∧ wheelArg c a ≤ 255 := by
  have ha : a.toNat < 256 := a.isLt
  rw [wheelArg_eq]
  split_ifs <;> omega

theorem turnDelta_bounded (c : Config) (neg : Bool) (a : Byte) : -255 ≤ turnDelta c neg a ∧ turnDelta c neg a ≤ 255 := by
  have harg := wheelArg_bounded c a
  cases neg <;> simp only [turnDelta, Bool.false_eq_true, if_true, if_false] <;> omega

/-- The legal widths have room for every turn (R7, R25). -/
theorem deltaFits_of_bounded {w : Nat} (hw : 9 ≤ w) {d : Int} (hd : -255 ≤ d ∧ d ≤ 255) : DeltaFits w d := by
  have hroom : (2 : Int) ^ 8 ≤ 2 ^ (w - 1) := pow_le_pow_right₀ (by norm_num) (by omega)
  constructor <;> omega

/-! ### The inbound rows -/

/-- A command that needs an argument does in its row's instruction what it does in the dispatch, and nothing where the
argument is missing (R112). -/
theorem exec_withArgument {op : Byte} {row : Byte → List Byte → Instr} {command : Byte → State → State}
    (hrow : ∀ a extra s, exec (row a extra) s = commanded (command a s)) (args : List Byte) (s : State) :
    exec (withArgument op args row) s = commanded (routeArgument args command s) := by
  cases args with
  | nil => rfl
  | cons a extra => exact hrow a extra s

theorem exec_decodeNotify79 (args : List Byte) (s : State) :
    exec (decodeNotify79 args) s = commanded (dispatch79 args s) := by
  cases args with
  | nil => rfl
  | cons a extra =>
    by_cases h38 : a = 0x38
    · subst h38; rfl
    · by_cases hFF : a = 0xFF
      · subst hFF; rfl
      · rw [decodeNotify79, if_neg h38, if_neg hFF, dispatch79, if_neg (not_or.2 ⟨h38, hFF⟩)]
        rfl

/-- The decoder's rows and the dispatcher's routes are the same cases on the opcode (R56, R101). -/
theorem exec_decodeInbound (p : List Byte) (s : State) : exec (decodeInbound p) s = commanded (dispatch p s) := by
  cases p with
  | nil => rfl
  | cons op args =>
    rw [decodeInbound, dispatch]
    split_ifs
    · exact exec_decodeNotify79 args s
    · rfl
    iterate 6 exact exec_withArgument (fun _ _ _ => rfl) args s
    rfl

/-- Each of the four turn commands turns the wheels of its selector by its signed delta (R107, R117). -/
theorem exec_turnInstr (fifty neg : Bool) (a : Byte) (s : State) :
    exec (turnInstr fifty neg a) s = .next (turnedBy (turnSelector fifty) (turnDelta s.cfg neg a) s) := by
  cases fifty <;> cases neg <;> rfl

/-! ### Turns in a row, and the tick after them -/

theorem runInstrs_append (is js : List Instr) (s : State) :
    runInstrs (is ++ js) s = andThen (runInstrs is s) (runInstrs js) := by
  induction is generalizing s with
  | nil => rfl
  | cons i is ih =>
    have htail : runInstrs (is ++ js) = fun t => andThen (runInstrs is t) (runInstrs js) := funext ih
    rw [List.cons_append, runInstrs, runInstrs, andThen_assoc, htail]

/-- One wheel after turns of its selector, each a direction and an argument. -/
def applyTurns (c : Config) (turns : List (Bool × Byte)) (w : Wheel) : Wheel :=
  turns.foldl (fun w x => applyDelta c (turnDelta c x.1 x.2) w) w

/-- A turn reaches every wheel of its selector (R142). -/
theorem turnedBy_getElem? {s : State} {i : Nat} {w : Wheel} {sel : Byte} (hw : s.wheels[i]? = some w) (hsel : w.sel = sel)
    (d : Int) : (turnedBy sel d s).wheels[i]? = some (applyDelta s.cfg d w) := by
  simp [turnedBy, hw, hsel, applyDelta]

/-- Turns of a wheel's selector complete, and leave the wheel turned by each of them. -/
theorem runInstrs_turns (fifty : Bool) (turns : List (Bool × Byte)) {s : State} {i : Nat} {w : Wheel}
    (hw : s.wheels[i]? = some w) (hsel : w.sel = turnSelector fifty) :
    ∃ t, runInstrs (turns.map fun x => turnInstr fifty x.1 x.2) s = .next t ∧
      t.wheels[i]? = some (applyTurns s.cfg turns w) ∧ t.cfg = s.cfg ∧ t.inSink = s.inSink := by
  induction turns generalizing s w with
  | nil => exact ⟨s, rfl, hw, rfl, rfl⟩
  | cons x turns ih =>
    have hturned := turnedBy_getElem? hw hsel (turnDelta s.cfg x.1 x.2)
    obtain ⟨t, hrun, hwheel, hcfg, hsink⟩ := ih hturned hsel
    refine ⟨t, ?_, hwheel, hcfg, hsink⟩
    rw [List.map_cons, runInstrs, exec_turnInstr, andThen_next, hrun]

/-- The tick after the turns shows what they left pending (R119). -/
theorem runInstrs_turns_tick (fifty : Bool) (turns : List (Bool × Byte)) {s : State} {i : Nat} {w : Wheel}
    (hsink : s.inSink = false) (hw : s.wheels[i]? = some w) (hsel : w.sel = turnSelector fifty) :
    ∃ t, runInstrs (turns.map (fun x => turnInstr fifty x.1 x.2) ++ [.tick]) s = .next t ∧
      t.wheels[i]? = some (latchWheel (applyTurns s.cfg turns w)) ∧ t.inSink = false := by
  obtain ⟨t, hrun, hwheel, -, htsink⟩ := runInstrs_turns fifty turns hw hsel
  refine ⟨returning .noResult (latchWheels t), ?_, by simp [hwheel], htsink.trans hsink⟩
  rw [runInstrs_append, hrun, andThen_next, runInstrs, exec_tick (htsink.trans hsink)]
  rfl

/-- Guarded or not, the assignment of R119 leaves `committed` at what was pending. -/
theorem latchWheel_committed (w : Wheel) : (latchWheel w).committed = w.pending := by
  rw [latchWheel_eq]
  split_ifs with h
  · exact h.symm
  · rfl

theorem applyTurns_pending_of_accumulate {c : Config} (hacc : c.wheelAccumulate = true) (hw : 1 ≤ c.wheelW)
    (turns : List (Bool × Byte)) {w : Wheel} (hfits : DeltaFits c.wheelW w.pending) :
    (applyTurns c turns w).pending =
      wrapDelta c.wheelW (w.pending + (turns.map fun x => turnDelta c x.1 x.2).sum) := by
  induction turns generalizing w with
  | nil => simp [applyTurns, wrapDelta_of_fits hw hfits]
  | cons x turns ih =>
    have hpending : (applyDelta c (turnDelta c x.1 x.2) w).pending =
        wrapDelta c.wheelW (w.pending + turnDelta c x.1 x.2) := if_pos hacc
    have htail := ih (w := applyDelta c (turnDelta c x.1 x.2) w) (hpending ▸ wrapDelta_fits hw _)
    rw [hpending, wrapDelta_wrapDelta_add, add_assoc] at htail
    rw [List.map_cons, List.sum_cons, ← htail]
    rfl

theorem applyTurns_pending_of_replace {c : Config} (hacc : c.wheelAccumulate = false) {turns : List (Bool × Byte)}
    {x : Bool × Byte} (hlast : turns.getLast? = some x) (w : Wheel) :
    (applyTurns c turns w).pending = turnDelta c x.1 x.2 := by
  obtain ⟨earlier, rfl⟩ := List.getLast?_eq_some_iff.1 hlast
  simp [applyTurns, applyDelta, hacc]

/-- One turn of a wheel at rest is pending as it is, under either value of each switch. -/
theorem applyTurns_pending_of_rest {c : Config} (hcfg : c.Wf) (x : Bool × Byte) {w : Wheel} (hrest : w.pending = 0) :
    (applyTurns c [x] w).pending = turnDelta c x.1 x.2 := by
  have hw : 1 ≤ c.wheelW := le_trans (by norm_num) hcfg.2
  have hfits := deltaFits_of_bounded hcfg.2 (turnDelta_bounded c x.1 x.2)
  cases hacc : c.wheelAccumulate with
  | false => exact applyTurns_pending_of_replace hacc rfl w
  | true =>
    have hfits0 : DeltaFits c.wheelW w.pending := hrest ▸ deltaFits_of_bounded hcfg.2 (by norm_num)
    rw [applyTurns_pending_of_accumulate hacc hw _ hfits0]
    simp [hrest, wrapDelta_of_fits hw hfits]

/-! ### The statements -/

/-- Settles O5: range, congruence and uniqueness are the two directions of one equivalence. -/
theorem wrapIsTheResidueInTheWidthsRange : Obligations.WrapIsTheResidueInTheWidthsRange := by
  intro w v hw
  obtain ⟨hfits, hcongr⟩ := (wrapDelta_eq_iff hw (v := v)).1 rfl
  exact ⟨hfits, hcongr, fun u hu huv => ((wrapDelta_eq_iff hw).2 ⟨hu, huv⟩).symm⟩

/-- Settles O6: the two's-complement value of a byte, written out. -/
theorem turnArgumentIsExtendedAsConfigured : Obligations.TurnArgumentIsExtendedAsConfigured := wheelArg_eq

/-- Settles O40: the decoder and the dispatcher make the same cases. -/
theorem inboundInstructionIsTheDispatchOfItsPayload : Obligations.InboundInstructionIsTheDispatchOfItsPayload :=
  exec_decodeInbound

/-- Settles O41: a notification row is one `emit`, and a drop's row is none. -/
theorem notificationsNotifyOnceAndDropsDoNothing : Obligations.NotificationsNotifyOnceAndDropsDoNothing :=
  fun _ _ => ⟨rfl, rfl, rfl, rfl, rfl⟩

/-- Settles O42: both rows are the one button update, with the level the row names. -/
theorem buttonCommandsSetEveryMatchingLevel : Obligations.ButtonCommandsSetEveryMatchingLevel :=
  fun _ _ _ => ⟨rfl, rfl⟩

/-- Settles O43: the four rows are the turn commands of two selectors and two signs; a row's further bytes are not
looked at. -/
theorem wheelCommandsTurnEveryMatchingWheel : Obligations.WheelCommandsTurnEveryMatchingWheel := fun a _ s =>
  ⟨exec_turnInstr false false a s, exec_turnInstr false true a s, exec_turnInstr true false a s,
    exec_turnInstr true true a s⟩

/-- Settles O46: the wheel after the turns, in the two ways a turn is applied, latched by the tick. -/
theorem severalTurnsInOneTickCollapseOrAccumulate : Obligations.SeveralTurnsInOneTickCollapseOrAccumulate := by
  intro fifty turns s i w hcfg hsink hw hsel hfits
  obtain ⟨t, hrun, hwheel, -⟩ := runInstrs_turns_tick fifty turns hsink hw hsel
  refine ⟨t, _, hrun, hwheel, rfl, fun hacc x hlast => ?_, fun hacc => ?_⟩
  · rw [latchWheel_committed, applyTurns_pending_of_replace hacc hlast]
  · rw [latchWheel_committed, applyTurns_pending_of_accumulate hacc (le_trans (by norm_num) hcfg.2) turns hfits]

/-- Settles O45: the first tick shows the one turn, and leaves nothing pending for the second. -/
theorem turnShowsForExactlyOneTick : Obligations.TurnShowsForExactlyOneTick := by
  intro fifty neg a s i w hcfg hsink hw hsel hrest
  obtain ⟨t, hrun, hwheel, htsink⟩ := runInstrs_turns_tick fifty [(neg, a)] hsink hw hsel
  have hsecond : (latchWheels t).wheels[i]? = some (latchWheel (latchWheel (applyTurns s.cfg [(neg, a)] w))) := by
    simp [hwheel]
  refine ⟨t, _, _, _, hrun, exec_tick htsink, hwheel, ?_, hsecond, latchWheel_committed _⟩
  rw [latchWheel_committed, applyTurns_pending_of_rest hcfg _ hrest]

end Sys2Proof.Machine
end

section
/-! PROOFS. What a step can do, and what it keeps (spec/10_state.md sections 2 to 5, spec/60_exceptions.md section 1). First
everything RX of a byte can do and everything an instruction can do, each said once; then what each of these keeps; then the
statements. -/

namespace Sys2Proof.Machine

/-! ### What RX of a byte can do -/

/-- `t` is `s` but for the framing state machine, the buffer and `phase`, and the buffer is still one of `BUF_CAP` bytes if
it was one. -/
def FramingMoved (s t : State) : Prop :=
  ∃ f r a e m ph, t = { s with fs := f, rdIdx := r, stIdx := a, enIdx := e, buf := m, phase := ph } ∧
    (BufferContents s.cfg.bufCap s.buf → BufferContents s.cfg.bufCap m)

theorem FramingMoved.trans {s t u : State} (hst : FramingMoved s t) (htu : FramingMoved t u) : FramingMoved s u := by
  obtain ⟨_, _, _, _, m, _, rfl, hm⟩ := hst
  obtain ⟨f, r, a, e, m', ph, rfl, hm'⟩ := htu
  exact ⟨f, r, a, e, m', ph, rfl, fun h => hm' (hm h)⟩

/-- A move that writes no byte of the buffer. -/
theorem framingMoved_cursors (s : State) (f : FrameState) (r : Nat) (a e : Cursor) (ph : Phase) :
    FramingMoved s { s with fs := f, rdIdx := r, stIdx := a, enIdx := e, phase := ph } :=
  ⟨f, r, a, e, s.buf, ph, rfl, id⟩

theorem FramingMoved.refl (s : State) : FramingMoved s s := framingMoved_cursors s _ _ _ _ _

theorem framingMoved_of_bufWrite {i : Nat} {b : Byte} {s t : State} (h : bufWrite i b s = .next t) :
    FramingMoved s t := by
  obtain ⟨hlt, rfl⟩ := bufWrite_eq_next.1 h
  exact ⟨_, _, _, _, _, _, rfl, fun hm => ⟨memWrite_wf i b hm.1, memWrite_bounded b hlt hm.2⟩⟩

theorem framingMoved_of_store {b : Byte} {s t : State} (h : store b s = .next t) : FramingMoved s t := by
  obtain ⟨u, hu, ht⟩ := andThen_eq_next.1 h
  cases ht
  exact (framingMoved_of_bufWrite hu).trans (framingMoved_cursors u _ _ _ _ _)

theorem framingMoved_resetFrame (s : State) : FramingMoved s (resetFrame s) := framingMoved_cursors s _ _ _ _ _

theorem framingMoved_overflowCheck (s : State) : FramingMoved s (overflowCheck s) := by
  obtain ⟨-, -, h⟩ | ⟨-, h⟩ := overflowCheck_cases s <;> rw [h]
  · exact framingMoved_resetFrame s
  · exact .refl s

/-- A byte is stored, the cursors move, and the overflow check ends the case (R76, R79, R83, R84, R88). -/
theorem framingMoved_of_store_check {b : Byte} {s t : State} {g : State → State} (hg : ∀ u, FramingMoved u (g u))
    (h : (andThen (store b s) fun u => .next (overflowCheck (g u))) = .next t) : FramingMoved s t := by
  obtain ⟨u, hu, ht⟩ := andThen_eq_next.1 h
  cases ht
  exact ((framingMoved_of_store hu).trans (hg u)).trans (framingMoved_overflowCheck (g u))

theorem framingMoved_of_confirmEnd {s t : State} (h : confirmEnd s = .next t) : FramingMoved s t := by
  obtain ⟨u, hu, ht⟩ := andThen_eq_next.1 h
  cases ht
  exact ((framingMoved_cursors s _ _ _ _ _).trans (framingMoved_of_store hu)).trans
    (framingMoved_cursors u _ _ _ _ _)

theorem framingMoved_of_restartFrame {s t : State} (h : restartFrame s = .next t) : FramingMoved s t := by
  obtain ⟨u, hu, ht⟩ := andThen_eq_next.1 h
  obtain ⟨v, hv, ht⟩ := andThen_eq_next.1 ht
  cases ht
  exact ((framingMoved_of_bufWrite hu).trans (framingMoved_of_bufWrite hv)).trans
    (framingMoved_cursors v _ _ _ _ _)

theorem framingMoved_of_rxSearchStart {b : Byte} {s t : State} (h : rxSearchStart b s = .next t) :
    FramingMoved s t := by
  unfold rxSearchStart at h
  split_ifs at h
  · exact framingMoved_of_store_check (fun u => framingMoved_cursors u _ _ _ _ _) h
  · cases h
    exact framingMoved_cursors s _ _ _ _ _
  · cases h
    exact .refl s

theorem framingMoved_of_rxStartPending {b : Byte} {s t : State} (h : rxStartPending b s = .next t) :
    FramingMoved s t := by
  unfold rxStartPending at h
  split_ifs at h
  · exact framingMoved_of_store_check (fun u => framingMoved_cursors u _ _ _ _ _) h
  · cases h
    exact framingMoved_resetFrame s

theorem framingMoved_of_rxInPayload {b : Byte} {s t : State} (h : rxInPayload b s = .next t) : FramingMoved s t := by
  unfold rxInPayload at h
  split_ifs at h
  · exact framingMoved_of_store_check (fun u => framingMoved_cursors u _ _ _ _ _) h
  · exact framingMoved_of_store_check .refl h

theorem framingMoved_of_rxEndPending {b : Byte} {s t : State} (h : rxEndPending b s = .next t) :
    FramingMoved s t := by
  unfold rxEndPending at h
  split_ifs at h
  · exact framingMoved_of_confirmEnd h
  · cases h
    exact .refl s
  · exact framingMoved_of_restartFrame h
  · exact framingMoved_of_store_check (fun u => framingMoved_cursors u _ _ _ _ _) h

theorem rxChecksumWait_cases {b : Byte} {s t : State} (h : rxChecksumWait b s = .next t) :
    t = resetFrame s ∨ ∃ p, t = deliver p s := by
  unfold rxChecksumWait at h
  split at h
  · rename_i p hp
    split_ifs at h <;> cases h
    · exact .inr ⟨p, rfl⟩
    · exact .inl rfl
  · cases h

/-- Everything RX of a byte can do: it moves the framing state machine, or, at the checksum byte, delivers a payload. -/
theorem rxByte_cases {b : Byte} {s t : State} (h : rxByte b s = .next t) :
    FramingMoved s t ∨ s.fs = .checksumWait ∧ ∃ p, t = deliver p (startRun s) := by
  have hstart : FramingMoved s (startRun s) := framingMoved_cursors s _ _ _ _ _
  rw [rxByte_eq_rxIn] at h
  cases hfs : s.fs <;> rw [hfs] at h
  case searchStart => exact .inl (hstart.trans (framingMoved_of_rxSearchStart h))
  case startPending => exact .inl (hstart.trans (framingMoved_of_rxStartPending h))
  case inPayload => exact .inl (hstart.trans (framingMoved_of_rxInPayload h))
  case endPending => exact .inl (hstart.trans (framingMoved_of_rxEndPending h))
  case checksumWait =>
    obtain rfl | hdeliver := rxChecksumWait_cases h
    · exact .inl (hstart.trans (framingMoved_resetFrame _))
    · exact .inr ⟨rfl, hdeliver⟩

/-! ### What receiving keeps -/

/-- A property that everything RX is made of keeps: the moves of the framing state machine, an event, and the updates of
the input state, a turn being no longer than 255. -/
structure KeptByReceiving (P : State → Prop) : Prop where
  moved : ∀ s t, FramingMoved s t → P s → P t
  emitted : ∀ e s, P s → P (emit e s)
  leveled : ∀ id v s, P s → P (buttonUpdate id v s)
  turned : ∀ sel d s, -255 ≤ d ∧ d ≤ 255 → P s → P (wheelApply sel d s)

/-- Both signs of a turn argument are the delta of a turn command. -/
theorem dispatch_turn_bounded {c : Config} {a : Byte} {d : Int} (hd : d = wheelArg c a ∨ d = -wheelArg c a) :
    -255 ≤ d ∧ d ≤ 255 := by
  obtain rfl | rfl := hd
  · exact turnDelta_bounded c false a
  · exact turnDelta_bounded c true a

section
variable {P : State → Prop} (hP : KeptByReceiving P)
include hP

theorem KeptByReceiving.dispatch (p : List Byte) {s : State} (hs : P s) : P (dispatch p s) := by
  obtain h | ⟨b, -, h⟩ | ⟨id, v, h⟩ | ⟨sel, a, d, -, hd, h⟩ := dispatch_cases p s <;> rw [h]
  · exact hs
  · exact hP.emitted _ _ hs
  · exact hP.leveled _ _ _ hs
  · exact hP.turned _ _ _ (dispatch_turn_bounded hd) hs

theorem KeptByReceiving.rxByte {b : Byte} {s t : State} (h : rxByte b s = .next t) (hs : P s) : P t := by
  obtain hmoved | ⟨-, p, rfl⟩ := rxByte_cases h
  · exact hP.moved s t hmoved hs
  · have hstart : P (startRun s) := hP.moved s _ (framingMoved_cursors s _ _ _ _ _) hs
    exact hP.moved _ _ (framingMoved_resetFrame _) (hP.dispatch p (hP.emitted _ _ hstart))

theorem KeptByReceiving.rxAll {bs : List Byte} {s t : State} (h : rxAll bs s = .next t) (hs : P s) : P t := by
  induction bs generalizing s with
  | nil => cases h; exact hs
  | cons b bs ih =>
    obtain ⟨u, hu, ht⟩ := andThen_eq_next.1 h
    exact ih ht (hP.rxByte hu hs)

end

/-! ### What an instruction can do -/

/-- Everything instruction `i` can do from `s`, by the operations it is made of. -/
inductive Effect : Instr → State → State → Prop where
  | refuses {i s} (r : RefuseReason) : Effect i s (refuse r s)
  | answers {i s} (r : OpResult) : Effect i s (returning r s)
  | notifies {i s} (b : Byte) : Effect i s (returning .noResult (emit (.notify b) s))
  | sends {i s} (p : List Byte) : Effect i s (returning .noResult (transmit p s))
  | levels {i s id extra} (v : Bool) (hi : i = .btnSet id extra ∨ i = .btnClr id extra) :
      Effect i s (returning .noResult (buttonUpdate id v s))
  | turns {i s} (sel : Byte) (d : Int) (hd : -255 ≤ d ∧ d ≤ 255) :
      Effect i s (returning .noResult (wheelApply sel d s))
  | ticks {s} : Effect .tick s (returning .noResult (latchWheels s))
  | resets {s} : Effect .reset s (returning .noResult (resetBlock s))
  | addsButton {s id} (hroom : s.buttons.length ≠ s.cfg.maxButtons) :
      Effect (.regButton id) s (returning (.ok s.buttons.length) (addButton id s))
  | addsWheel {s sel} (hsel : legalSelector sel = true) (hroom : s.wheels.length ≠ s.cfg.maxWheels) :
      Effect (.regWheel sel) s (returning (.ok s.wheels.length) (addWheel sel s))
  | receives {i s t bs} (hi : receives i = true) (h : rxAll bs (returning .noResult s) = .next t) : Effect i s t
  | updates {s t bs} (h : rxAll bs (returning .noResult s) = .next t) : Effect (.update bs) s (latchWheels t)

theorem exec_readLevel (i : Nat) (s : State) :
    exec (.readLevel i) s = readEntry s.buttons[i]? (fun b => .level b.level) s := by
  have harm : exec (.readLevel i) s = execReadLevel i s := rfl
  rw [harm, execReadLevel, buttonAt]
  cases s.buttons[i]? <;> rfl

/-- RESET outside the sink (R128). -/
theorem exec_reset {s : State} (hsink : s.inSink = false) :
    exec .reset s = .next (returning .noResult (resetBlock s)) := by
  have harm : exec .reset s = execReset s := rfl
  rw [harm, execReset, outsideSink_of_false hsink]

theorem readEntry_effect {α : Type} (i : Instr) (entry : Option α) (answer : α → OpResult) (s : State) :
    ∃ t, readEntry entry answer s = .next t ∧ Effect i s t := by
  cases entry with
  | none => exact ⟨_, rfl, .refuses _⟩
  | some e => exact ⟨_, rfl, .answers _⟩

/-- From inside the sink an operation is refused (R158); what it does outside is left to show. -/
theorem exec_effect_of_outside {i : Instr} {s : State} {f : State → Step} (harm : exec i s = outsideSink s f)
    (hf : s.inSink = false → ∃ t, exec i s = .next t ∧ Effect i s t) : ∃ t, exec i s = .next t ∧ Effect i s t := by
  cases hsink : s.inSink with
  | false => exact hf hsink
  | true => exact ⟨_, harm.trans (outsideSink_of_true hsink f), .refuses _⟩

theorem exec_regButton_effect {s : State} (hsink : s.inSink = false) (id : Byte) :
    ∃ t, exec (.regButton id) s = .next t ∧ Effect (.regButton id) s t := by
  rw [exec_regButton hsink]
  split_ifs with hphase hfull
  · exact ⟨_, rfl, .refuses _⟩
  · exact ⟨_, rfl, .answers _⟩
  · exact ⟨_, rfl, .addsButton hfull⟩

theorem exec_regWheel_effect {s : State} (hsink : s.inSink = false) (sel : Byte) :
    ∃ t, exec (.regWheel sel) s = .next t ∧ Effect (.regWheel sel) s t := by
  rw [exec_regWheel hsink]
  split_ifs with hphase hsel hfull
  · exact ⟨_, rfl, .refuses _⟩
  · exact ⟨_, rfl, .refuses _⟩
  · exact ⟨_, rfl, .answers _⟩
  · exact ⟨_, rfl, .addsWheel (Bool.not_eq_false _ ▸ hsel) hfull⟩

theorem exec_setLightOp_effect (id on : Byte) (s : State) :
    ∃ t, exec (.setLightOp id on) s = .next t ∧ Effect (.setLightOp id on) s t := by
  have harm : exec (.setLightOp id on) s = execSetLightOp id on s := rfl
  rw [harm, execSetLightOp]
  cases booleanOperand on with
  | none => exact ⟨_, rfl, .refuses _⟩
  | some v => exact ⟨_, rfl, .sends _⟩

/-- An instruction that does not receive completes in every state. -/
theorem exec_effect_of_not_receives {i : Instr} (hi : receives i = false) (s : State) :
    ∃ t, exec i s = .next t ∧ Effect i s t := by
  cases i with
  | dle | stx | etx | ack | frame _ _ | rx _ | update _ => cases hi
  | notify7938 _ | notify79FF _ | notify35 _ => exact ⟨_, rfl, .notifies _⟩
  | drop79 _ | drop _ => exact ⟨_, rfl, .answers _⟩
  | btnSet _ _ => exact ⟨_, rfl, .levels true (.inl rfl)⟩
  | btnClr _ _ => exact ⟨_, rfl, .levels false (.inr rfl)⟩
  | whl40Pos a _ | whl50Pos a _ => exact ⟨_, rfl, .turns _ _ (turnDelta_bounded s.cfg false a)⟩
  | whl40Neg a _ | whl50Neg a _ => exact ⟨_, rfl, .turns _ _ (turnDelta_bounded s.cfg true a)⟩
  | setIllumination _ | setHighlight _ | setLightGroup _ | setLight _ _ | enableKeys | shutdown | send _
  | setIlluminationOp _ | setHighlightOp _ | enableKeysOp | shutdownOp => exact ⟨_, rfl, .sends _⟩
  | setLightOp id on => exact exec_setLightOp_effect id on s
  | reset =>
    have harm : execReset s = outsideSink s _ := rfl
    exact exec_effect_of_outside harm fun hsink => ⟨_, exec_reset hsink, .resets⟩
  | tick =>
    have harm : execTick s = outsideSink s _ := rfl
    exact exec_effect_of_outside harm fun hsink => ⟨_, exec_tick hsink, .ticks⟩
  | regButton id =>
    have harm : execRegButton id s = outsideSink s _ := rfl
    exact exec_effect_of_outside harm fun hsink => exec_regButton_effect hsink id
  | regWheel sel =>
    have harm : execRegWheel sel s = outsideSink s _ := rfl
    exact exec_effect_of_outside harm fun hsink => exec_regWheel_effect hsink sel
  | readLevel n => rw [exec_readLevel]; exact readEntry_effect _ _ _ s
  | readDelta n => rw [exec_readDelta]; exact readEntry_effect _ _ _ s
  | wasTurned n => rw [exec_wasTurned]; exact readEntry_effect _ _ _ s
  | reservedF => exact ⟨_, rfl, .refuses _⟩

/-- The bytes an instruction receives (R51, R52, R66). -/
def wireBytes : Instr → List Byte
  | .dle => [DLE]
  | .stx => [STX]
  | .etx => [ETX]
  | .ack => [ACK]
  | .frame body cs => [DLE, STX] ++ body ++ [DLE, ETX, cs]
  | .rx b => [b]
  | .update bs => bs
  | _ => []

/-- What a receiving instruction does after its bytes: UPDATE ticks (R145). -/
def afterBytes : Instr → State → State
  | .update _ => latchWheels
  | _ => id

/-- Every receiving instruction is RX of its bytes outside the sink, and then its tick if it has one. -/
theorem exec_of_receives {i : Instr} (hi : receives i = true) (s : State) :
    exec i s = outsideSink s fun s => andThen (rxAll (wireBytes i) (returning .noResult s)) fun t =>
      .next (afterBytes i t) := by
  have hreceive : ∀ bs, receive bs s = outsideSink s fun s => andThen (rxAll bs (returning .noResult s)) .next := by
    intro bs
    refine congrArg (outsideSink s) (funext fun s => ?_)
    cases rxAll bs (returning .noResult s) <;> rfl
  cases i with
  | dle | stx | etx | ack | rx _ | frame _ _ => exact hreceive _
  | update bs => rfl
  | _ => cases hi

theorem exec_effect {i : Instr} {s t : State} (h : exec i s = .next t) : Effect i s t := by
  cases hi : receives i with
  | false =>
    obtain ⟨t', ht', heffect⟩ := exec_effect_of_not_receives hi s
    cases ht'.symm.trans h
    exact heffect
  | true =>
    rw [exec_of_receives hi] at h
    cases hsink : s.inSink with
    | true =>
      rw [outsideSink_of_true hsink] at h
      cases h
      exact .refuses _
    | false =>
      rw [outsideSink_of_false hsink] at h
      obtain ⟨u, hu, ht⟩ := andThen_eq_next.1 h
      cases ht
      cases i with
      | update bs => exact .updates hu
      | _ => exact .receives hi hu

/-! ### Receiving and instructions complete in good states -/

theorem rxAll_completes (bs : List Byte) {s : State} (hcap : 5 ≤ s.cfg.bufCap) (hframing : FramingInv s) :
    ∃ t, rxAll bs s = .next t ∧ ReceivedFrom s t := by
  induction bs generalizing s with
  | nil => exact ⟨s, rfl, hframing, rfl, rfl, rfl⟩
  | cons b bs ih =>
    obtain ⟨u, hu, hkept⟩ := rxByte_completes hcap hframing b
    obtain ⟨t, ht, hkept'⟩ := ih (hkept.cfg ▸ hcap) hkept.framing
    refine ⟨t, by rw [rxAll_cons, hu, andThen_next, ht], hkept'.framing, hkept'.cfg.trans hkept.cfg,
      hkept'.result.trans hkept.result, hkept'.inSink.trans hkept.inSink⟩

theorem exec_completes (i : Instr) {s : State} (hcap : 5 ≤ s.cfg.bufCap) (hframing : FramingInv s) :
    ∃ t, exec i s = .next t := by
  cases hi : receives i with
  | false =>
    obtain ⟨t, ht, -⟩ := exec_effect_of_not_receives hi s
    exact ⟨t, ht⟩
  | true =>
    rw [exec_of_receives hi]
    cases hsink : s.inSink with
    | true => exact ⟨_, outsideSink_of_true hsink _⟩
    | false =>
      obtain ⟨t, ht, -⟩ := rxAll_completes (wireBytes i) (s := returning .noResult s) hcap hframing
      exact ⟨_, by rw [outsideSink_of_false hsink, ht, andThen_next]⟩

/-- The framing table survives receiving in a good state. -/
theorem framingInv_of_rxAll {bs : List Byte} {s t : State} (hcap : 5 ≤ s.cfg.bufCap) (hframing : FramingInv s)
    (h : rxAll bs s = .next t) : FramingInv t := by
  obtain ⟨t', ht', hkept⟩ := rxAll_completes bs hcap hframing
  cases ht'.symm.trans h
  exact hkept.framing

/-! ### The limits of the parameters, the buffer and the registry -/

/-- What `State.Inv` says beside the framing table. -/
def Limits (s : State) : Prop := s.cfg.Wf ∧ BufferInv s ∧ RegistryInv s

theorem inv_iff_limits {s : State} : s.Inv ↔ FramingInv s ∧ Limits s := by
  unfold Limits
  tauto

/-- The limits of one wheel (R24, R25). -/
def WheelLimits (c : Config) (w : Wheel) : Prop :=
  legalSelector w.sel = true ∧ DeltaFits c.wheelW w.pending ∧ DeltaFits c.wheelW w.committed

theorem applyDelta_limits {c : Config} (hcfg : c.Wf) {d : Int} (hd : -255 ≤ d ∧ d ≤ 255) {w : Wheel}
    (hw : WheelLimits c w) : WheelLimits c (applyDelta c d w) := by
  obtain ⟨hsel, -, hcommitted⟩ := hw
  refine ⟨hsel, ?_, hcommitted⟩
  simp only [applyDelta]
  split_ifs
  · exact wrapDelta_fits (le_trans (by norm_num) hcfg.2) _
  · exact deltaFits_of_bounded hcfg.2 hd

theorem latchWheel_limits {c : Config} (hcfg : c.Wf) {w : Wheel} (hw : WheelLimits c w) :
    WheelLimits c (latchWheel w) := by
  obtain ⟨hsel, hpending, -⟩ := hw
  exact ⟨hsel, deltaFits_of_bounded hcfg.2 (by norm_num [latchWheel]), latchWheel_committed w ▸ hpending⟩

/-- A change of every wheel that keeps the limits of each keeps the registry's. -/
theorem limits_of_map {s : State} (hs : Limits s) {f : Wheel → Wheel}
    (hf : ∀ w, WheelLimits s.cfg w → WheelLimits s.cfg (f w)) : Limits { s with wheels := s.wheels.map f } := by
  obtain ⟨hcfg, hbuf, hbtn, hcount, hwheels⟩ := hs
  refine ⟨hcfg, hbuf, hbtn, ?_, fun w hw => ?_⟩
  · simpa [State.whlCount] using hcount
  · obtain ⟨v, hv, rfl⟩ := List.mem_map.1 hw
    exact hf v (hwheels v hv)

theorem keptByReceiving_limits : KeptByReceiving Limits where
  moved := by
    rintro s _ ⟨_, _, _, _, m, _, rfl, hm⟩ ⟨hcfg, hbuf, hreg⟩
    exact ⟨hcfg, hm hbuf, hreg⟩
  emitted _ _ hs := hs
  leveled _ _ _ := by
    rintro ⟨hcfg, hbuf, hbtn, hrest⟩
    exact ⟨hcfg, hbuf, by simpa [State.btnCount] using hbtn, hrest⟩
  turned sel d s hd hs := limits_of_map hs fun w hw => by
    split_ifs
    · exact applyDelta_limits hs.1 hd hw
    · exact hw

theorem limits_latchWheels {s : State} (hs : Limits s) : Limits (latchWheels s) :=
  limits_of_map (s := startRun s) hs fun _ hw => latchWheel_limits hs.1 hw

theorem limits_resetBlock {s : State} (hs : Limits s) : Limits (resetBlock s) := by
  obtain ⟨hcfg, hbuf, -⟩ := hs
  exact ⟨hcfg, hbuf, Nat.zero_le _, Nat.zero_le _, by simp⟩

theorem limits_addButton {s : State} (hs : Limits s) (hroom : s.buttons.length ≠ s.cfg.maxButtons) (id : Byte) :
    Limits (addButton id s) := by
  obtain ⟨hcfg, hbuf, hbtn, hrest⟩ := hs
  have hcount : s.buttons.length + 1 ≤ s.cfg.maxButtons := Nat.lt_of_le_of_ne hbtn hroom
  exact ⟨hcfg, hbuf, by simpa [State.btnCount] using hcount, hrest⟩

theorem limits_addWheel {s : State} (hs : Limits s) (hroom : s.wheels.length ≠ s.cfg.maxWheels) {sel : Byte}
    (hsel : legalSelector sel = true) : Limits (addWheel sel s) := by
  obtain ⟨hcfg, hbuf, hbtn, hwhl, hwheels⟩ := hs
  have hcount : s.wheels.length + 1 ≤ s.cfg.maxWheels := Nat.lt_of_le_of_ne hwhl hroom
  have hzero : DeltaFits s.cfg.wheelW 0 := deltaFits_of_bounded hcfg.2 (by norm_num)
  refine ⟨hcfg, hbuf, hbtn, by simpa [State.whlCount] using hcount, fun w hw => ?_⟩
  rcases List.mem_append.1 hw with hold | hnew
  · exact hwheels w hold
  · rw [List.mem_singleton.1 hnew]
    exact ⟨hsel, hzero, hzero⟩

theorem effect_keeps_limits {i : Instr} {s t : State} (h : Effect i s t) (hs : Limits s) : Limits t := by
  cases h with
  | refuses r | answers r | notifies b | sends p => exact hs
  | levels v _ => exact keptByReceiving_limits.leveled _ v s hs
  | turns sel d hd => exact keptByReceiving_limits.turned sel d s hd hs
  | ticks => exact limits_latchWheels hs
  | resets => exact limits_resetBlock hs
  | addsButton hroom => exact limits_addButton hs hroom _
  | addsWheel hsel hroom => exact limits_addWheel hs hroom hsel
  | receives _ hall => exact keptByReceiving_limits.rxAll hall hs
  | updates hall => exact limits_latchWheels (keptByReceiving_limits.rxAll hall hs)

theorem effect_keeps_framingInv {i : Instr} {s t : State} (h : Effect i s t) (hcap : 5 ≤ s.cfg.bufCap)
    (hs : FramingInv s) : FramingInv t := by
  cases h with
  | refuses r | answers r | notifies b | sends p => exact hs
  | levels | turns | ticks | addsButton | addsWheel => exact hs
  | resets => exact framingInv_searching s
  | receives _ hall => exact framingInv_of_rxAll (s := returning .noResult s) hcap hs hall
  | @updates _ u _ hall =>
    have hu : FramingInv u := framingInv_of_rxAll (s := returning .noResult s) hcap hs hall
    exact hu

theorem exec_keeps_inv {i : Instr} {s t : State} (hs : s.Inv) (h : exec i s = .next t) : t.Inv := by
  obtain ⟨hframing, hlimits⟩ := inv_iff_limits.1 hs
  have heffect := exec_effect h
  exact inv_iff_limits.2 ⟨effect_keeps_framingInv heffect hlimits.1.1 hframing, effect_keeps_limits heffect hlimits⟩

/-! ### What every instruction keeps -/

/-- The refusal mark stays, and the parameters, the queue and the sink mark are not written. -/
def MarksKept (s t : State) : Prop :=
  (s.refused = true → t.refused = true) ∧ t.cfg = s.cfg ∧ t.input = s.input ∧ t.inSink = s.inSink

theorem keptByReceiving_marksKept (s : State) : KeptByReceiving (MarksKept s) where
  moved := by
    rintro t _ ⟨_, _, _, _, _, _, rfl, -⟩ h
    exact h
  emitted _ _ h := h
  leveled _ _ _ h := h
  turned _ _ _ _ h := h

theorem exec_marksKept {i : Instr} {s t : State} (h : exec i s = .next t) : MarksKept s t := by
  have hself : MarksKept s s := ⟨id, rfl, rfl, rfl⟩
  cases exec_effect h with
  | refuses r => exact ⟨fun _ => rfl, rfl, rfl, rfl⟩
  | answers | notifies | sends | levels | turns | ticks | resets | addsButton | addsWheel => exact hself
  | receives _ hall => exact (keptByReceiving_marksKept s).rxAll (s := returning .noResult s) hall hself
  | @updates _ u _ hall =>
    have hu : MarksKept s u := (keptByReceiving_marksKept s).rxAll (s := returning .noResult s) hall hself
    exact hu

theorem wheelApply_committed (sel : Byte) (d : Int) (s : State) :
    (wheelApply sel d s).wheels.map (·.committed) = s.wheels.map (·.committed) := by
  rw [wheelApply_wheels, List.map_map]
  refine List.map_congr_left fun w _ => ?_
  simp only [Function.comp_apply]
  split_ifs <;> rfl

theorem keptByReceiving_committed (deltas : List Int) : KeptByReceiving fun s => s.wheels.map (·.committed) = deltas where
  moved := by
    rintro t _ ⟨_, _, _, _, _, _, rfl, -⟩ h
    exact h
  emitted _ _ h := h
  leveled _ _ _ h := h
  turned sel d s _ h := (wheelApply_committed sel d s).trans h

/-- The entries of `s` stand in `t` at their indices, and the trace of `s` is the front of the trace of `t`. -/
def Extends (s t : State) : Prop :=
  s.buttons.map (·.id) <+: t.buttons.map (·.id) ∧ s.wheels.map (·.sel) <+: t.wheels.map (·.sel) ∧ s.out <+: t.out

theorem extends_refl (s : State) : Extends s s := ⟨List.prefix_rfl, List.prefix_rfl, List.prefix_rfl⟩

theorem buttonUpdate_ids (id : Byte) (v : Bool) (s : State) :
    (buttonUpdate id v s).buttons.map (·.id) = s.buttons.map (·.id) := by
  rw [buttonUpdate_buttons, List.map_map]
  refine List.map_congr_left fun b _ => ?_
  simp only [Function.comp_apply]
  split_ifs <;> rfl

theorem wheelApply_sels (sel : Byte) (d : Int) (s : State) :
    (wheelApply sel d s).wheels.map (·.sel) = s.wheels.map (·.sel) := by
  rw [wheelApply_wheels, List.map_map]
  refine List.map_congr_left fun w _ => ?_
  simp only [Function.comp_apply]
  split_ifs <;> rfl

theorem latchWheels_sels (s : State) : (latchWheels s).wheels.map (·.sel) = s.wheels.map (·.sel) := by
  rw [latchWheels_wheels, List.map_map]
  rfl

theorem keptByReceiving_extends (s : State) : KeptByReceiving (Extends s) where
  moved := by
    rintro t _ ⟨_, _, _, _, _, _, rfl, -⟩ h
    exact h
  emitted := fun _ _ ⟨hids, hsels, hout⟩ => ⟨hids, hsels, hout.trans (List.prefix_append _ _)⟩
  leveled := fun id v t ⟨hids, hrest⟩ => ⟨(buttonUpdate_ids id v t).symm ▸ hids, hrest⟩
  turned := fun sel d t _ ⟨hids, hsels, hout⟩ => ⟨hids, (wheelApply_sels sel d t).symm ▸ hsels, hout⟩

theorem extends_latchWheels {s t : State} (h : Extends s t) : Extends s (latchWheels t) := by
  obtain ⟨hids, hsels, hout⟩ := h
  exact ⟨hids, (latchWheels_sels t).symm ▸ hsels, hout⟩

theorem exec_extends {i : Instr} {s t : State} (hi : i ≠ .reset) (h : exec i s = .next t) : Extends s t := by
  have hkept := keptByReceiving_extends s
  have hself := extends_refl s
  cases exec_effect h with
  | refuses | answers => exact hself
  | notifies b => exact hkept.emitted _ s hself
  | sends p => exact ⟨List.prefix_rfl, List.prefix_rfl, List.prefix_append _ _⟩
  | levels v _ => exact hkept.leveled _ v s hself
  | turns sel d hd => exact hkept.turned sel d s hd hself
  | ticks => exact extends_latchWheels hself
  | resets => exact absurd rfl hi
  | addsButton => exact ⟨by simp, List.prefix_rfl, List.prefix_rfl⟩
  | addsWheel => exact ⟨List.prefix_rfl, by simp, List.prefix_rfl⟩
  | receives _ hall => exact hkept.rxAll (s := returning .noResult s) hall hself
  | updates hall => exact extends_latchWheels (hkept.rxAll (s := returning .noResult s) hall hself)

/-! ### The default deltas -/

/-- A wheel as the default parameters leave it (R25). -/
def DefaultWheel (w : Wheel) : Prop :=
  (-255 ≤ w.pending ∧ w.pending ≤ 255) ∧ -255 ≤ w.committed ∧ w.committed ≤ 255

/-- A change of every wheel that keeps each a default one. -/
theorem defaultDeltas_of_map {s : State} (hs : DefaultDeltas s) {f : Wheel → Wheel}
    (hf : ∀ w, DefaultWheel w → DefaultWheel (f w)) : DefaultDeltas { s with wheels := s.wheels.map f } := by
  obtain ⟨hacc, hsigned, hwheels⟩ := hs
  refine ⟨hacc, hsigned, fun w hw => ?_⟩
  obtain ⟨v, hv, rfl⟩ := List.mem_map.1 hw
  exact hf v (hwheels v hv)

theorem keptByReceiving_defaultDeltas : KeptByReceiving DefaultDeltas where
  moved := by
    rintro s _ ⟨_, _, _, _, _, _, rfl, -⟩ h
    exact h
  emitted _ _ h := h
  leveled _ _ _ h := h
  turned sel d s hd hs := defaultDeltas_of_map hs fun w hw => by
    split_ifs
    · exact ⟨by simpa [applyDelta, hs.1] using hd, hw.2⟩
    · exact hw

theorem defaultDeltas_latchWheels {s : State} (hs : DefaultDeltas s) : DefaultDeltas (latchWheels s) :=
  defaultDeltas_of_map (s := startRun s) hs fun w hw =>
    ⟨by norm_num [latchWheel], (latchWheel_committed w).symm ▸ hw.1⟩

theorem exec_keeps_defaultDeltas {i : Instr} {s t : State} (hs : DefaultDeltas s) (h : exec i s = .next t) :
    DefaultDeltas t := by
  cases exec_effect h with
  | refuses | answers | notifies | sends | levels | addsButton => exact hs
  | turns sel d hd => exact keptByReceiving_defaultDeltas.turned sel d s hd hs
  | ticks => exact defaultDeltas_latchWheels hs
  | resets => exact ⟨hs.1, hs.2.1, by simp⟩
  | addsWheel =>
    obtain ⟨hacc, hsigned, hwheels⟩ := hs
    refine ⟨hacc, hsigned, fun w hw => ?_⟩
    rcases List.mem_append.1 hw with hold | hnew
    · exact hwheels w hold
    · rw [List.mem_singleton.1 hnew]
      norm_num
  | receives _ hall => exact keptByReceiving_defaultDeltas.rxAll hall hs
  | updates hall => exact defaultDeltas_latchWheels (keptByReceiving_defaultDeltas.rxAll hall hs)

/-! ### The statements -/

/-- A step keeps what every instruction keeps, if it does not speak of the queue and the sink mark. -/
theorem step_keeps {P : State → Prop} (hfetch : ∀ s rest sink, P s → P { s with input := rest, inSink := sink })
    (hexec : ∀ i s t, P s → exec i s = .next t → P t) {s t : State} (hs : P s) (h : step s = .next t) : P t := by
  obtain ⟨-, hidle⟩ | ⟨it, rest, -, ⟨i, -, hi⟩ | ⟨e, -, he⟩⟩ := step_cases s
  · cases hidle.symm.trans h
    exact hs
  · exact hexec i _ t (hfetch s rest it.fromSink hs) (hi.symm.trans h)
  · cases he.symm.trans h

/-- Settles O12: the framing table by what RX completes in, the other limits operation by operation. -/
theorem everyStepKeepsTheInvariant : Obligations.EveryStepKeepsTheInvariant :=
  fun _ _ hs h => step_keeps (P := State.Inv) (fun _ _ _ hs => hs) (fun _ _ _ => exec_keeps_inv) hs h

/-- Settles O13: an instruction that does not receive completes everywhere, and RX where the framing table is met. -/
theorem noInstructionStopsInAGoodState : Obligations.NoInstructionStopsInAGoodState :=
  fun i _ ⟨hcfg, hframing, _⟩ => exec_completes i hcfg.1 hframing

/-- Settles O14: no effect writes any of the four, but a refusal the mark. -/
theorem noInstructionClearsTheRefusalMark : Obligations.NoInstructionClearsTheRefusalMark :=
  fun _ _ _ => exec_marksKept

/-- Settles O15: of the effects without reception only RESET's writes the framing state, and none the buffer. -/
theorem onlyReceivingWritesTheFrameBuffer : Obligations.OnlyReceivingWritesTheFrameBuffer := by
  intro i s t hi h
  cases exec_effect h with
  | refuses | answers | notifies | sends | levels | turns | ticks | addsButton | addsWheel =>
    exact ⟨fun _ => rfl, fun _ => ⟨rfl, rfl, rfl, rfl⟩⟩
  | resets => exact ⟨fun _ => rfl, fun hne => absurd rfl hne⟩
  | receives hrx _ => exact absurd (hrx.symm.trans hi) (by decide)
  | updates _ => cases hi

/-- Settles O16: a turn writes `pending` alone, and the writers of `committed` are excluded. -/
theorem onlyATickWritesCommittedDeltas : Obligations.OnlyATickWritesCommittedDeltas := by
  intro i s t htick hupdate hreset hreg h
  cases exec_effect h with
  | refuses | answers | notifies | sends | levels | addsButton => rfl
  | turns sel d _ => exact wheelApply_committed sel d s
  | ticks => exact absurd rfl htick
  | resets => exact absurd rfl hreset
  | addsWheel => exact absurd rfl (hreg _)
  | receives _ hall => exact (keptByReceiving_committed _).rxAll (s := returning .noResult s) hall rfl
  | updates _ => exact absurd rfl (hupdate _)

/-- Settles O17: without reception, the writers of the button registry are excluded. -/
theorem onlyACommandChangesButtonLevels : Obligations.OnlyACommandChangesButtonLevels := by
  intro i s t hi hbtn hreset hreg h
  cases exec_effect h with
  | refuses | answers | notifies | sends | turns | ticks | addsWheel => rfl
  | levels v hrow => exact hrow.elim (fun hset => absurd hset (hbtn _ _).1) fun hclr => absurd hclr (hbtn _ _).2
  | resets => exact absurd rfl hreset
  | addsButton => exact absurd rfl (hreg _)
  | receives hrx _ => exact absurd (hrx.symm.trans hi) (by decide)
  | updates _ => cases hi

/-- Settles O18: registrations and events are appended, and updates keep ids and selectors. -/
theorem handlesStayAndTheTraceGrowsUntilReset : Obligations.HandlesStayAndTheTraceGrowsUntilReset :=
  fun _ _ _ => exec_extends

/-- Settles O19: without accumulation a turn replaces `pending` by a delta of at most 255. -/
theorem defaultDeltasStayWithin255 : Obligations.DefaultDeltasStayWithin255 :=
  fun _ _ hs h => step_keeps (fun _ _ _ hs => hs) (fun _ _ _ => exec_keeps_defaultDeltas) hs h

/-- Settles O11: at reset the machine is searching, and the registries are empty. -/
theorem resetStateSatisfiesTheInvariant : Obligations.ResetStateSatisfiesTheInvariant := fun c m hcfg hm =>
  ⟨hcfg, framingInv_searching (State.resetWith c m), hm, Nat.zero_le _, Nat.zero_le _, by simp [State.resetWith]⟩

end Sys2Proof.Machine
end

section
/-! PROOFS. Single operations: RX and the control bytes in each framing state (spec/40_framecodec.md sections 3 and 4), RESET,
the reads and the command builders (spec/43_controller.md), refusal from inside the sink (spec/60_exceptions.md section 3),
and the step itself. First the rules that are still missing; then the statements. -/

namespace Sys2Proof.Machine

/-! ### Control bytes -/

/-- The four control bytes are RX of their byte. -/
theorem exec_dle (s : State) : exec .dle s = exec (.rx 0x10) s := rfl

theorem exec_stx (s : State) : exec .stx s = exec (.rx 0x02) s := rfl

theorem exec_etx (s : State) : exec .etx s = exec (.rx 0x03) s := rfl

theorem exec_ack (s : State) : exec .ack s = exec (.rx 0x06) s := rfl

/-! ### The cases of the framing state machine -/

/-- The first byte of a frame (R76) looks at the read cursor alone. -/
theorem rxSearchStart_dle_of_rdIdx {s : State} (hrd : s.rdIdx = 0) (hcap : 5 ≤ s.cfg.bufCap) :
    rxSearchStart DLE s = .next
      { s with fs := .startPending, rdIdx := 1, stIdx := .tentative, buf := memWrite s.buf 0 DLE } := by
  rw [rxSearchStart, if_pos rfl, store_of_lt (by omega), andThen_next, overflowCheck_of_ne]
  · simp [hrd]
  · show s.rdIdx + 1 ≠ s.cfg.bufCap
    omega

theorem rxSearchStart_ack (s : State) : rxSearchStart ACK s = .next { s with rdIdx := 0 } := by
  rw [rxSearchStart, if_neg (by decide), if_pos rfl]

/-- A byte without meaning while searching (R78). -/
theorem rxSearchStart_of_ne {b : Byte} (hdle : b ≠ DLE) (hack : b ≠ ACK) (s : State) :
    rxSearchStart b s = .next s := by
  rw [rxSearchStart, if_neg hdle, if_neg hack]

/-- The second byte of a frame (R79) looks at the read cursor alone. -/
theorem rxStartPending_stx_of_rdIdx {s : State} (hrd : s.rdIdx = 1) (hcap : 5 ≤ s.cfg.bufCap) :
    rxStartPending STX s = .next
      { s with fs := .inPayload, rdIdx := 2, stIdx := .pos 2, buf := memWrite s.buf 1 STX } := by
  rw [rxStartPending, if_pos rfl, store_of_lt (by omega), andThen_next, overflowCheck_of_ne]
  · simp [hrd]
  · show s.rdIdx + 1 ≠ s.cfg.bufCap
    omega

theorem rxEndPending_etx (s : State) : rxEndPending ETX s = confirmEnd s := if_pos rfl

theorem rxEndPending_dle (s : State) : rxEndPending DLE s = .next s := by
  rw [rxEndPending, if_neg (by decide), if_pos rfl]

/-- Any other checksum byte (R92). -/
theorem rxChecksumWait_of_mismatch {s : State} {p : List Byte} {b : Byte} (h : PayloadIs s p) (hb : b ≠ checksum p) :
    rxChecksumWait b s = .next (searching s) := by
  simp [rxChecksumWait, readPayload_of_payloadIs h, checksumMatches, hb, resetFrame_eq_searching]

/-! ### Refusal from inside the sink -/

/-- The operations R158 names, and those made of them, are turned away from inside the sink. -/
theorem exec_of_inSink {i : Instr} {s : State} (hsink : s.inSink = true)
    (hi : receives i = true ∨ i = .tick ∨ i = .reset ∨ (∃ id, i = .regButton id) ∨ ∃ sel, i = .regWheel sel) :
    exec i s = .next (refusedWith .reentrantOperation s) := by
  rcases hi with hrx | rfl | rfl | ⟨id, rfl⟩ | ⟨sel, rfl⟩
  · rw [exec_of_receives hrx]
    exact outsideSink_of_true hsink _
  · have harm : execTick s = outsideSink s _ := rfl
    exact harm.trans (outsideSink_of_true hsink _)
  · have harm : execReset s = outsideSink s _ := rfl
    exact harm.trans (outsideSink_of_true hsink _)
  · have harm : execRegButton id s = outsideSink s _ := rfl
    exact harm.trans (outsideSink_of_true hsink _)
  · have harm : execRegWheel sel s = outsideSink s _ := rfl
    exact harm.trans (outsideSink_of_true hsink _)

/-! ### A run of DLEs -/

/-- A stuffed DLE (R86). -/
theorem exec_dle_in_endPending {s : State} (hfs : s.fs = .endPending) (hsink : s.inSink = false) :
    exec (.rx 0x10) s = .next (received s) := by
  rw [exec_rx hsink, hfs]
  exact rxEndPending_dle (received s)

/-- After one DLE in a payload with room, a further DLE changes nothing (R86); inside the sink both are refused. -/
theorem exec_dle_in_payload_settles {s : State} (hfs : s.fs = .inPayload) (hroom : s.rdIdx + 1 < s.cfg.bufCap) :
    ∃ u, exec (.rx 0x10) s = .next u ∧ exec (.rx 0x10) u = .next u := by
  cases hsink : s.inSink with
  | true => exact ⟨_, exec_of_inSink hsink (.inl rfl), exec_of_inSink hsink (.inl rfl)⟩
  | false =>
    have hlt : (received s).rdIdx < (received s).cfg.bufCap := Nat.lt_of_succ_lt hroom
    have hfirst : exec (.rx 0x10) s = .next
        { received s with
          fs := .endPending, rdIdx := s.rdIdx + 1, enIdx := .tentative, buf := memWrite s.buf s.rdIdx DLE } := by
      rw [exec_rx hsink, hfs]
      exact (rxInPayload_dle hlt).trans (congrArg Host.Outcome.next (if_neg (Nat.ne_of_lt hroom)))
    exact ⟨_, hfirst, exec_dle_in_endPending rfl hsink⟩

theorem runInstrs_replicate_of_fixed {i : Instr} {u : State} (h : exec i u = .next u) (k : Nat) (is : List Instr) :
    runInstrs (List.replicate k i ++ is) u = runInstrs is u := by
  induction k with
  | zero => rfl
  | succ k ih => rw [List.replicate_succ, List.cons_append, runInstrs, h, andThen_next, ih]

/-! ### What is delivered -/

/-- A dispatch appends at most one notification, of a byte of R70. -/
theorem dispatch_out_cases (p : List Byte) (s : State) :
    (dispatch p s).out = s.out ∨
      ∃ n : Byte, (n = 0x38 ∨ n = 0xFF ∨ n = 0x35) ∧ (dispatch p s).out = s.out ++ [.notify n] := by
  obtain h | ⟨n, hn, h⟩ | ⟨id, v, h⟩ | ⟨sel, a, d, -, -, h⟩ := dispatch_cases p s <;> rw [h]
  · exact .inl rfl
  · exact .inr ⟨n, hn, rfl⟩
  · exact .inl rfl
  · exact .inl rfl

/-! ### The builders -/

theorem exec_setLightOp_of_some {on : Byte} {v : Bool} (h : booleanOperand on = some v) (id : Byte) (s : State) :
    exec (.setLightOp id on) s = .next (sent (lightPayload id v) s) := by
  have harm : exec (.setLightOp id on) s = execSetLightOp id on s := rfl
  rw [harm, execSetLightOp, h]
  exact sending_eq_sent _ s

theorem exec_setLightOp_of_none {on : Byte} (h : booleanOperand on = none) (id : Byte) (s : State) :
    exec (.setLightOp id on) s = .next (refusedWith .badBooleanOperand s) := by
  have harm : exec (.setLightOp id on) s = execSetLightOp id on s := rfl
  rw [harm, execSetLightOp, h]
  rfl

theorem booleanOperand_of_ne {on : Byte} (h0 : on ≠ 0x00) (h1 : on ≠ 0x01) : booleanOperand on = none := by
  rw [booleanOperand, if_neg h0, if_neg h1]

theorem lightPayload_of_ne {id : Byte} (h : id ≠ 0x10) (on : Bool) :
    lightPayload id on = [0x68, if on then 0x01 else 0x00, id] := if_neg h

/-! ### The statements -/

/-- Settles O20: the DLE is written at index 0, and the buffer is not full. -/
theorem dleWhileSearchingOpensAFrame : Obligations.DleWhileSearchingOpensAFrame := by
  intro s hfs hrd hcap hsink
  refine ⟨memWrite s.buf 0 0x10, storedAt_memWrite s 0 0x10, ?_⟩
  rw [exec_dle, and_self, exec_rx hsink, hfs]
  exact rxSearchStart_dle_of_rdIdx (s := received s) hrd hcap

/-- Settles O21: the two branches of the search that store nothing. -/
theorem otherBytesWhileSearchingAreNotStored : Obligations.OtherBytesWhileSearchingAreNotStored := by
  intro s hfs hsink
  have hack : exec (.rx 0x06) s = .next { received s with rdIdx := 0 } := by
    rw [exec_rx hsink, hfs]
    exact rxSearchStart_ack (received s)
  refine ⟨hack, (exec_ack s).trans hack, fun b hb10 hb06 => ?_⟩
  rw [exec_rx hsink, hfs]
  exact rxSearchStart_of_ne hb10 hb06 (received s)

/-- Settles O22: the STX is written at index 1, and the buffer is not full. -/
theorem stxConfirmsTheStart : Obligations.StxConfirmsTheStart := by
  intro s hfs hrd hcap hsink
  refine ⟨memWrite s.buf 1 0x02, storedAt_memWrite s 1 0x02, ?_⟩
  rw [exec_stx, and_self, exec_rx hsink, hfs]
  exact rxStartPending_stx_of_rdIdx (s := received s) hrd hcap

/-- Settles O24: the rule of a DLE in the payload, both ends of the overflow check. -/
theorem dleInPayloadMayEndTheFrame : Obligations.DleInPayloadMayEndTheFrame := by
  intro s hfs hlt hsink
  refine ⟨memWrite s.buf s.rdIdx 0x10, _, storedAt_memWrite s s.rdIdx 0x10, ?_, ?_, rfl⟩
  · rw [exec_rx hsink, hfs]
    exact rxInPayload_dle (s := received s) hlt
  · rw [exec_dle, exec_rx hsink, hfs]
    exact rxInPayload_dle (s := received s) hlt

/-- Settles O26: the confirmed end, which makes no overflow check. -/
theorem etxAfterDleConfirmsTheEnd : Obligations.EtxAfterDleConfirmsTheEnd := by
  intro s hfs _ hlt hsink
  refine ⟨memWrite s.buf s.rdIdx 0x03, storedAt_memWrite s s.rdIdx 0x03, ?_⟩
  rw [exec_etx, and_self, exec_rx hsink, hfs]
  exact (rxEndPending_etx (received s)).trans (confirmEnd_of_lt (s := received s) hlt)

/-- Settles O27: the branch of END_PENDING that answers the state as it is. -/
theorem stuffedDleIsNotStored : Obligations.StuffedDleIsNotStored := fun s hfs hsink =>
  ⟨exec_dle_in_endPending hfs hsink, (exec_dle s).trans (exec_dle_in_endPending hfs hsink)⟩

/-- Settles O31: the payload read gives `p`, and the comparison fails. -/
theorem mismatchedChecksumDiscardsTheFrame : Obligations.MismatchedChecksumDiscardsTheFrame := by
  intro s p b hfs hp hb hsink
  rw [exec_rx hsink, hfs]
  exact rxChecksumWait_of_mismatch (s := received s) hp hb

/-- Settles O37: the first DLE leads to a state that every further one keeps. -/
theorem dleRunLengthDoesNotMatter : Obligations.DleRunLengthDoesNotMatter := by
  intro s k x hfs hroom
  obtain ⟨u, hfirst, hfixed⟩ := exec_dle_in_payload_settles hfs hroom
  rw [List.map_append, List.map_replicate, List.replicate_succ, List.cons_append, runInstrs, runInstrs, hfirst,
    andThen_next, andThen_next, runInstrs_replicate_of_fixed hfixed]
  rfl

/-- Settles O38: a move of the framing state machine appends nothing, and a delivery the ACK and what its dispatch
appends. -/
theorem oneByteAppendsAtMostAnAckAndANotification : Obligations.OneByteAppendsAtMostAnAckAndANotification := by
  intro b s t h
  cases hsink : s.inSink with
  | true =>
    rw [exec_of_inSink hsink (.inl rfl)] at h
    cases h
    exact .inl rfl
  | false =>
    rw [exec_rx_eq_rxByte hsink] at h
    obtain ⟨_, _, _, _, _, _, rfl, -⟩ | ⟨hfs, p, rfl⟩ := rxByte_cases h
    · exact .inl rfl
    · refine .inr ⟨hfs, rfl, ?_⟩
      obtain hout | ⟨n, hn, hout⟩ := dispatch_out_cases p (emit (.tx ACK) (startRun (returning .noResult s)))
      · exact .inl hout
      · refine .inr ⟨n, hn, hout.trans ?_⟩
        simp [ACK]

/-- Settles O48: the read of a button, which its handle either names or does not. -/
theorem buttonReadAnswersTheLevel : Obligations.ButtonReadAnswersTheLevel := by
  intro s i
  rw [exec_readLevel]
  exact ⟨fun b hb => readEntry_of_some hb _ s, fun hle => readEntry_of_length_le hle _ s⟩

/-- Settles O49: RESET's effect is the framing reset and the four fields it empties. -/
theorem resetStartsANewLifetime : Obligations.ResetStartsANewLifetime := fun _ hsink => exec_reset hsink

/-- Settles O53: each of the four is the one sending operation, on its payload. -/
theorem brightnessCommandsSendTheirPayloads : Obligations.BrightnessCommandsSendTheirPayloads := fun b s =>
  ⟨sending_eq_sent [0x60, b] s, sending_eq_sent [0x60, b] s, sending_eq_sent [0x64, b, 0x01] s,
    sending_eq_sent [0x64, b, 0x01] s⟩

/-- Settles O54: the payload's two forms by the light, and the interface byte's three cases. -/
theorem setLightSendsTheGroupOrSingleForm : Obligations.SetLightSendsTheGroupOrSingleForm := by
  intro s
  refine ⟨fun on => sending_eq_sent _ s, fun on id hid => ?_, fun id on hon => ?_, fun id on h0 h1 => ?_⟩
  · exact lightPayload_of_ne hid on ▸ sending_eq_sent (lightPayload id on) s
  · obtain rfl | rfl := hon
    · exact exec_setLightOp_of_some (v := false) rfl id s
    · exact exec_setLightOp_of_some (v := true) rfl id s
  · exact exec_setLightOp_of_none (booleanOperand_of_ne h0 h1) id s

/-- Settles O55: the frame of `[0x70, 0x12]`, its checksum evaluated. -/
theorem enableKeysSendsItsFrame : Obligations.EnableKeysSendsItsFrame := fun s =>
  ⟨sending_eq_sent [0x70, 0x12] s, sending_eq_sent [0x70, 0x12] s, congrArg (s.out ++ ·) (by decide)⟩

/-- Settles O56: both forms are the one sending operation, on the same payload. -/
theorem shutdownOnlySendsItsFrame : Obligations.ShutdownOnlySendsItsFrame := fun s =>
  ⟨sending_eq_sent [0x70, 0x11] s, sending_eq_sent [0x70, 0x11] s⟩

/-- Settles O59: the sink's check comes first in each of them. -/
theorem reentrantOperationsAreRefused : Obligations.ReentrantOperationsAreRefused :=
  fun _ _ hsink hi => exec_of_inSink hsink hi

/-- Settles O7: the queue's first item is fetched and decoded. -/
theorem stepRunsTheDecodedInstruction : Obligations.StepRunsTheDecodedInstruction := by
  intro s it sink rest i hinput hdecode
  simp only [step, fetch, hinput, hdecode]

/-- Settles O8: with no item the step is the state, and the decoder's error is the refusal's. -/
theorem stepIdlesWithoutOperationAndRejectsByName : Obligations.StepIdlesWithoutOperationAndRejectsByName := by
  refine ⟨fun s hinput => ?_, fun s it rest e hinput hdecode => ?_⟩
  · simp only [step, fetch, hinput]
  · simp only [step, fetch, hinput, hdecode]

end Sys2Proof.Machine
end

section
/-! PROOFS. Runs (spec/00_scope.md section 4, spec/30_encoding.md section 3, spec/43_controller.md section 3): an instruction is
the run of its expansion, the queue is performed in order, and sending does not disturb receiving. The last two rest on one
idea: an operation that does not look at a part of the state does the same whatever stands there. -/

namespace Sys2Proof.Machine

/-! ### Runs of receive operations -/

theorem runInstrs_singleton (i : Instr) (s : State) : runInstrs [i] s = exec i s := by
  rw [runInstrs]
  cases exec i s <;> rfl

theorem returning_of_result {r : OpResult} {s : State} (h : s.result = r) : returning r s = s := by
  rw [← h]
  rfl

/-- Outside the sink, with no result. -/
def Receptive (s : State) : Prop := s.inSink = false ∧ s.result = .noResult

theorem keptByReceiving_receptive : KeptByReceiving Receptive where
  moved := by
    rintro s _ ⟨_, _, _, _, _, _, rfl, -⟩ h
    exact h
  emitted _ _ h := h
  leveled _ _ _ h := h
  turned _ _ _ _ h := h

/-- RX operations in a row receive their bytes in a row, a stop included. -/
theorem runInstrs_rx_of_receptive (bs : List Byte) {s : State} (hs : Receptive s) :
    runInstrs (bs.map .rx) s = rxAll bs s := by
  induction bs generalizing s with
  | nil => rfl
  | cons b bs ih =>
    have hexec : exec (.rx b) s = rxByte b s := by rw [exec_rx_eq_rxByte hs.1, returning_of_result hs.2]
    rw [List.map_cons, runInstrs, hexec, rxAll_cons]
    cases hu : rxByte b s with
    | next u => exact ih (keptByReceiving_receptive.rxByte hu hs)
    | fault _ => rfl
    | refused _ => rfl

/-- The first RX clears the result, so that only with no byte at all the earlier one is left. -/
theorem runInstrs_rx_of_ne_nil {bs : List Byte} (hbs : bs ≠ []) {s : State} (hsink : s.inSink = false) :
    runInstrs (bs.map .rx) s = rxAll bs (returning .noResult s) := by
  obtain ⟨b, bs, rfl⟩ := List.exists_cons_of_ne_nil hbs
  have hfirst : exec (.rx b) s = exec (.rx b) (returning .noResult s) := by
    rw [exec_rx_eq_rxByte hsink, exec_rx_eq_rxByte (s := returning .noResult s) hsink]
    rfl
  rw [← runInstrs_rx_of_receptive (b :: bs) (s := returning .noResult s) ⟨hsink, rfl⟩, List.map_cons, runInstrs,
    runInstrs, hfirst]

/-- Inside the sink, a run of operations that receive or tick is one refusal: the second changes nothing more. -/
theorem runInstrs_of_inSink {is : List Instr} (hne : is ≠ []) (his : ∀ i ∈ is, receives i = true ∨ i = .tick) {s : State}
    (hsink : s.inSink = true) : runInstrs is s = .next (refusedWith .reentrantOperation s) := by
  induction is generalizing s with
  | nil => exact absurd rfl hne
  | cons i is ih =>
    have hi : exec i s = .next (refusedWith .reentrantOperation s) :=
      exec_of_inSink hsink ((his i List.mem_cons_self).imp_right .inl)
    rw [runInstrs, hi, andThen_next]
    by_cases hnil : is = []
    · rw [hnil]; rfl
    · exact ih hnil (fun j hj => his j (List.mem_cons_of_mem i hj)) hsink

/-- A receiving instruction that does not tick is the RX of each of its bytes. -/
theorem exec_eq_runInstrs_rx {i : Instr} (hi : receives i = true) (hafter : afterBytes i = id)
    (hbytes : wireBytes i ≠ []) (s : State) : exec i s = runInstrs ((wireBytes i).map .rx) s := by
  rw [exec_of_receives hi]
  cases hsink : s.inSink with
  | true =>
    have hrx : ∀ j ∈ (wireBytes i).map Instr.rx, receives j = true ∨ j = .tick := fun j hj => by
      obtain ⟨b, -, rfl⟩ := List.mem_map.1 hj
      exact .inl rfl
    rw [outsideSink_of_true hsink, runInstrs_of_inSink (by simpa using hbytes) hrx hsink]
    rfl
  | false =>
    rw [outsideSink_of_false hsink, runInstrs_rx_of_ne_nil hbytes hsink, hafter]
    cases rxAll (wireBytes i) (returning .noResult s) <;> rfl

/-- UPDATE is the RX of each byte, and then TICK. -/
theorem exec_update_eq_runInstrs (bs : List Byte) (s : State) :
    exec (.update bs) s = runInstrs (bs.map .rx ++ [.tick]) s := by
  cases hsink : s.inSink with
  | true =>
    rw [exec_of_inSink hsink (.inl rfl), runInstrs_of_inSink (by simp) _ hsink]
    simp only [List.mem_append, List.mem_map, List.mem_singleton]
    rintro i (⟨b, -, rfl⟩ | rfl)
    · exact .inl rfl
    · exact .inr rfl
  | false =>
    rw [exec_update hsink, runInstrs_append]
    by_cases hbs : bs = []
    · rw [hbs]
      exact ((runInstrs_singleton .tick s).trans (exec_tick hsink)).symm
    · rw [runInstrs_rx_of_ne_nil hbs hsink]
      cases hu : rxAll bs (returning .noResult s) with
      | next u =>
        obtain ⟨husink, hures⟩ := keptByReceiving_receptive.rxAll (s := returning .noResult s) hu ⟨hsink, rfl⟩
        rw [andThen_next, andThen_next, runInstrs_singleton, exec_tick husink,
          returning_of_result (s := latchWheels u) hures]
      | fault _ => rfl
      | refused _ => rfl

/-- Both forms of SET_LIGHT expand to the SEND of the payload they send. -/
theorem expandLight_eq (id : Byte) (on : Bool) : expandLight id on = [.send (lightPayload id on)] := by
  rw [expandLight, lightPayload]
  cases on <;> split_ifs <;> rfl

/-! ### The same operation whatever stands in a part of the state -/

/-- The next state changed by `g`, a stop as it is. -/
def mapNext (g : State → State) (r : Step) : Step := andThen r fun t => .next (g t)

theorem mapNext_eq_next {g : State → State} {r : Step} {t : State} :
    mapNext g r = .next t ↔ ∃ u, r = .next u ∧ g u = t := by
  cases r <;> simp [mapNext]

theorem andThen_commutes {g : State → State} {r r' : Step} {f : State → Step} (hr : r' = mapNext g r)
    (hf : ∀ t, f (g t) = mapNext g (f t)) : andThen r' f = mapNext g (andThen r f) := by
  subst hr
  cases r with
  | next t => exact hf t
  | fault _ => rfl
  | refused _ => rfl

/-- A change of the state that no command sees, and that sees no command. -/
structure CommutesWithCommands (g : State → State) : Prop where
  cfg : ∀ s, (g s).cfg = s.cfg
  emit : ∀ e s, emit e (g s) = g (emit e s)
  buttonUpdate : ∀ id v s, buttonUpdate id v (g s) = g (buttonUpdate id v s)
  wheelApply : ∀ sel d s, wheelApply sel d (g s) = g (wheelApply sel d s)

section
variable {g : State → State} (hg : CommutesWithCommands g)
include hg

theorem CommutesWithCommands.turnPos (sel a : Byte) (s : State) : turnPos sel a (g s) = g (turnPos sel a s) := by
  rw [Machine.turnPos, hg.cfg, hg.wheelApply]
  rfl

theorem CommutesWithCommands.turnNeg (sel a : Byte) (s : State) : turnNeg sel a (g s) = g (turnNeg sel a s) := by
  rw [Machine.turnNeg, hg.cfg, hg.wheelApply]
  rfl

theorem CommutesWithCommands.dispatch79 (args : List Byte) (s : State) :
    dispatch79 args (g s) = g (dispatch79 args s) := by
  cases args with
  | nil => rfl
  | cons a extra =>
    simp only [Machine.dispatch79]
    split_ifs
    · exact hg.emit _ s
    · rfl

omit hg in
theorem routeArgument_commutes {command : Byte → State → State} (hc : ∀ a s, command a (g s) = g (command a s))
    (args : List Byte) (s : State) : routeArgument args command (g s) = g (routeArgument args command s) := by
  cases args with
  | nil => rfl
  | cons a extra => exact hc a s

theorem CommutesWithCommands.dispatch (p : List Byte) (s : State) : dispatch p (g s) = g (dispatch p s) := by
  cases p with
  | nil => rfl
  | cons op args =>
    have hset := routeArgument_commutes (fun a => hg.buttonUpdate a true) args s
    have hclr := routeArgument_commutes (fun a => hg.buttonUpdate a false) args s
    have hpos sel := routeArgument_commutes (hg.turnPos sel) args s
    have hneg sel := routeArgument_commutes (hg.turnNeg sel) args s
    simp only [Machine.dispatch, apply_ite g, hg.dispatch79 args s, hg.emit _ s, hset, hclr, hpos, hneg]

end

/-! ### RX does not look at the trace and the queue -/

/-- `s` with `o` before its trace, and `q` as its queue. -/
def behind (o : List Event) (q : List Issue) (s : State) : State := { s with out := o ++ s.out, input := q }

section
variable (o : List Event) (q : List Issue)

theorem commutesWithCommands_behind : CommutesWithCommands (behind o q) where
  cfg _ := rfl
  emit e s := by simp [emit, behind]
  buttonUpdate _ _ _ := rfl
  wheelApply _ _ _ := rfl

theorem bufWrite_behind (i : Nat) (b : Byte) (s : State) :
    bufWrite i b (behind o q s) = mapNext (behind o q) (bufWrite i b s) := by
  by_cases h : i < s.cfg.bufCap
  · rw [bufWrite_of_lt h, bufWrite_of_lt (s := behind o q s) h]
    rfl
  · simp [bufWrite, behind, mapNext, h]

theorem store_behind (b : Byte) (s : State) : store b (behind o q s) = mapNext (behind o q) (store b s) :=
  andThen_commutes (bufWrite_behind o q s.rdIdx b s) fun _ => rfl

theorem overflowCheck_behind (s : State) : overflowCheck (behind o q s) = behind o q (overflowCheck s) :=
  (apply_ite (behind o q) (overflowed s = true) (resetFrame s) s).symm

/-- A stored byte, moved cursors and the overflow check. -/
theorem store_check_behind {f : State → State} (hf : ∀ u, f (behind o q u) = behind o q (f u)) (b : Byte) (s : State) :
    (andThen (store b (behind o q s)) fun u => .next (overflowCheck (f u))) =
      mapNext (behind o q) (andThen (store b s) fun u => .next (overflowCheck (f u))) := by
  refine andThen_commutes (store_behind o q b s) fun u => ?_
  rw [hf, overflowCheck_behind]
  rfl

theorem rxSearchStart_behind (b : Byte) (s : State) :
    rxSearchStart b (behind o q s) = mapNext (behind o q) (rxSearchStart b s) := by
  unfold rxSearchStart
  split_ifs
  · exact store_check_behind o q (fun _ => by rfl) DLE s
  · rfl
  · rfl

theorem rxStartPending_behind (b : Byte) (s : State) :
    rxStartPending b (behind o q s) = mapNext (behind o q) (rxStartPending b s) := by
  unfold rxStartPending
  split_ifs
  · exact store_check_behind o q (fun _ => by rfl) STX s
  · rfl

theorem rxInPayload_behind (b : Byte) (s : State) :
    rxInPayload b (behind o q s) = mapNext (behind o q) (rxInPayload b s) := by
  unfold rxInPayload
  split_ifs
  · exact store_check_behind o q (fun _ => by rfl) DLE s
  · exact store_check_behind o q (fun _ => by rfl) b s

theorem confirmEnd_behind (s : State) : confirmEnd (behind o q s) = mapNext (behind o q) (confirmEnd s) :=
  andThen_commutes (store_behind o q ETX { s with enIdx := .pos (s.rdIdx - 1) }) fun _ => rfl

theorem restartFrame_behind (s : State) : restartFrame (behind o q s) = mapNext (behind o q) (restartFrame s) :=
  andThen_commutes (bufWrite_behind o q 0 DLE s) fun u => andThen_commutes (bufWrite_behind o q 1 STX u) fun _ => rfl

theorem rxEndPending_behind (b : Byte) (s : State) :
    rxEndPending b (behind o q s) = mapNext (behind o q) (rxEndPending b s) := by
  have hcfg : (behind o q s).cfg = s.cfg := rfl
  simp only [rxEndPending, hcfg]
  split_ifs
  · exact confirmEnd_behind o q s
  · rfl
  · exact restartFrame_behind o q s
  · exact store_check_behind o q (fun _ => by rfl) b s

theorem rxChecksumWait_behind (b : Byte) (s : State) :
    rxChecksumWait b (behind o q s) = mapNext (behind o q) (rxChecksumWait b s) := by
  have hread : readPayload (behind o q s) = readPayload s := rfl
  have hg := commutesWithCommands_behind o q
  simp only [rxChecksumWait, hread]
  cases readPayload s with
  | error f => rfl
  | ok p =>
    dsimp only
    split_ifs
    · rw [deliver, hg.emit, hg.dispatch]
      rfl
    · rfl

theorem rxByte_behind (b : Byte) (s : State) : rxByte b (behind o q s) = mapNext (behind o q) (rxByte b s) := by
  have hrule : rxIn s.fs b (behind o q (startRun s)) = mapNext (behind o q) (rxIn s.fs b (startRun s)) := by
    cases s.fs with
    | searchStart => exact rxSearchStart_behind o q b _
    | startPending => exact rxStartPending_behind o q b _
    | inPayload => exact rxInPayload_behind o q b _
    | endPending => exact rxEndPending_behind o q b _
    | checksumWait => exact rxChecksumWait_behind o q b _
  rw [rxByte_eq_rxIn, rxByte_eq_rxIn]
  exact hrule

theorem rxAll_behind (bs : List Byte) (s : State) : rxAll bs (behind o q s) = mapNext (behind o q) (rxAll bs s) := by
  induction bs generalizing s with
  | nil => rfl
  | cons b bs ih => exact andThen_commutes (rxByte_behind o q b s) ih

end

/-! ### No instruction looks at the queue, and none but a receiving one at the buffer -/

/-- `s` with `m` as its buffer and `q` as its queue. -/
def lent (m : Memory) (q : List Issue) (s : State) : State := { s with buf := m, input := q }

theorem readEntry_lent {α : Type} (m : Memory) (q : List Issue) (entry : Option α) (answer : α → OpResult) (s : State) :
    readEntry entry answer (lent m q s) = mapNext (lent m q) (readEntry entry answer s) := by
  cases entry <;> rfl

/-- From inside the sink the operation is refused either way. -/
theorem exec_lent_of_outside {i : Instr} {f : State → Step} {m : Memory} {q : List Issue} {s : State}
    (harm : ∀ s, exec i s = outsideSink s f)
    (hf : s.inSink = false → exec i (lent m q s) = mapNext (lent m q) (exec i s)) :
    exec i (lent m q s) = mapNext (lent m q) (exec i s) := by
  cases hsink : s.inSink with
  | false => exact hf hsink
  | true =>
    rw [harm, harm, outsideSink_of_true hsink, outsideSink_of_true (s := lent m q s) hsink]
    rfl

theorem exec_lent_of_not_receives {i : Instr} (hi : receives i = false) (m : Memory) (q : List Issue) (s : State) :
    exec i (lent m q s) = mapNext (lent m q) (exec i s) := by
  cases i with
  | dle | stx | etx | ack | frame _ _ | rx _ | update _ => cases hi
  | notify7938 _ | notify79FF _ | drop79 _ | notify35 _ | drop _ => rfl
  | btnSet _ _ | btnClr _ _ | whl40Pos _ _ | whl40Neg _ _ | whl50Pos _ _ | whl50Neg _ _ => rfl
  | setIllumination _ | setHighlight _ | setLightGroup _ | setLight _ _ | enableKeys | shutdown | send _
  | setIlluminationOp _ | setHighlightOp _ | enableKeysOp | shutdownOp | reservedF => rfl
  | setLightOp id on =>
    cases h : booleanOperand on with
    | none => rw [exec_setLightOp_of_none h, exec_setLightOp_of_none h]; rfl
    | some v => rw [exec_setLightOp_of_some h, exec_setLightOp_of_some h]; rfl
  | readLevel n => rw [exec_readLevel, exec_readLevel]; exact readEntry_lent m q _ _ s
  | readDelta n => rw [exec_readDelta, exec_readDelta]; exact readEntry_lent m q _ _ s
  | wasTurned n => rw [exec_wasTurned, exec_wasTurned]; exact readEntry_lent m q _ _ s
  | reset =>
    have harm : ∀ s, execReset s = outsideSink s _ := fun _ => rfl
    refine exec_lent_of_outside harm fun hsink => ?_
    rw [exec_reset hsink, exec_reset (s := lent m q s) hsink]
    rfl
  | tick =>
    have harm : ∀ s, execTick s = outsideSink s _ := fun _ => rfl
    refine exec_lent_of_outside harm fun hsink => ?_
    rw [exec_tick hsink, exec_tick (s := lent m q s) hsink]
    rfl
  | regButton id =>
    have harm : ∀ s, execRegButton id s = outsideSink s _ := fun _ => rfl
    refine exec_lent_of_outside harm fun hsink => ?_
    rw [exec_regButton hsink, exec_regButton (s := lent m q s) hsink, apply_ite (mapNext (lent m q)),
      apply_ite (mapNext (lent m q))]
    rfl
  | regWheel sel =>
    have harm : ∀ s, execRegWheel sel s = outsideSink s _ := fun _ => rfl
    refine exec_lent_of_outside harm fun hsink => ?_
    rw [exec_regWheel hsink, exec_regWheel (s := lent m q s) hsink, apply_ite (mapNext (lent m q)),
      apply_ite (mapNext (lent m q)), apply_ite (mapNext (lent m q))]
    rfl

theorem effect_buf_of_not_receives {i : Instr} {s t : State} (h : Effect i s t) (hi : receives i = false) :
    t.buf = s.buf := by
  cases h with
  | refuses | answers | notifies | sends | levels | turns | ticks | resets | addsButton | addsWheel => rfl
  | receives hrx _ => exact absurd (hrx.symm.trans hi) (by decide)
  | updates _ => cases hi

/-- `s` with `q` as its queue. -/
def queued (q : List Issue) (s : State) : State := { s with input := q }

/-- Every instruction does the same whatever stands in the queue, and leaves the queue. -/
theorem exec_queued (i : Instr) (q : List Issue) (s : State) : exec i (queued q s) = mapNext (queued q) (exec i s) := by
  cases hi : receives i with
  | false =>
    obtain ⟨t, ht, heffect⟩ := exec_effect_of_not_receives hi s
    have hlent : exec i (lent s.buf q s) = .next (lent s.buf q t) := by
      rw [exec_lent_of_not_receives hi, ht]
      rfl
    rw [ht]
    exact hlent.trans (by rw [← effect_buf_of_not_receives heffect hi]; rfl)
  | true =>
    rw [exec_of_receives hi, exec_of_receives hi]
    cases hsink : s.inSink with
    | true =>
      rw [outsideSink_of_true hsink, outsideSink_of_true (s := queued q s) hsink]
      rfl
    | false =>
      rw [outsideSink_of_false hsink, outsideSink_of_false (s := queued q s) hsink]
      refine andThen_commutes (rxAll_behind [] q (wireBytes i) (returning .noResult s)) fun t => ?_
      cases i <;> rfl

theorem core_run_succ (k : Nat) (s : State) : core.run (k + 1) s = andThen (step s) (core.run k) := by
  cases h : step s with
  | next t => exact (Host.Core.run.eq_2 core s k).trans (by rw [show core.step s = .next t from h]; rfl)
  | fault e => exact (Host.Core.run.eq_2 core s k).trans (by rw [show core.step s = .fault e from h]; rfl)
  | refused e => exact (Host.Core.run.eq_2 core s k).trans (by rw [show core.step s = .refused e from h]; rfl)

/-! ### The statements -/

/-- Settles O10: an instruction that receives is its RX operations, one that sends is the SEND of its payload, and every
other stands for itself. -/
theorem everyInstructionEqualsItsExpansion : Obligations.EveryInstructionEqualsItsExpansion := by
  intro i s
  cases i with
  | dle | stx | etx | ack => exact exec_eq_runInstrs_rx rfl rfl (by exact List.cons_ne_nil _ _) s
  | frame body cs =>
    have hexpand : ([DLE, STX] ++ body ++ [DLE, ETX, cs]).map Instr.rx = expand (.frame body cs) := by
      rw [List.map_append, List.map_append]
      rfl
    exact hexpand ▸ exec_eq_runInstrs_rx rfl rfl (by exact List.cons_ne_nil _ _) s
  | update bs => exact exec_update_eq_runInstrs bs s
  | setIllumination _ | setHighlight _ | enableKeys | shutdown | setIlluminationOp _ | setHighlightOp _ | enableKeysOp
  | shutdownOp => exact (runInstrs_singleton (.send _) s).symm
  | setLightGroup on =>
    rw [expand, expandLight_eq, runInstrs_singleton]
    rfl
  | setLight on id =>
    rw [expand, expandLight_eq, runInstrs_singleton]
    rfl
  | setLightOp id on =>
    rw [expand]
    cases h : booleanOperand on with
    | none => exact (runInstrs_singleton (.setLightOp id on) s).symm
    | some v =>
      rw [exec_setLightOp_of_some h]
      dsimp only
      rw [expandLight_eq, runInstrs_singleton]
      rfl
  | notify7938 _ | notify79FF _ | drop79 _ | notify35 _ | btnSet _ _ | btnClr _ _ | whl40Pos _ _ | whl40Neg _ _
  | whl50Pos _ _ | whl50Neg _ _ | drop _ | reset | rx _ | tick | regButton _ | regWheel _ | send _ | readLevel _
  | readDelta _ | wasTurned _ | reservedF => exact (runInstrs_singleton _ s).symm

/-- Settles O9: each step fetches, decodes and performs the first operation of the queue, which looks at no other. -/
theorem stepsPerformTheQueuedOperationsInOrder : Obligations.StepsPerformTheQueuedOperationsInOrder := by
  intro is
  induction is with
  | nil => exact fun s _ _ => rfl
  | cons i is ih =>
    intro s hwf hsink
    let rest : List Issue := is.map fun i => { item := encode i, fromSink := false }
    have hdecode := decodeReadsBackEveryEncoding i (hwf i List.mem_cons_self)
    have hstep : step { s with input := { item := encode i, fromSink := false } :: rest } =
        mapNext (queued rest) (exec i s) := by
      have houtside : ({ s with input := rest, inSink := false } : State) = queued rest s := by rw [queued, ← hsink]
      rw [stepRunsTheDecodedInstruction _ _ _ _ _ rfl hdecode, ← exec_queued, ← houtside]
    have hrun : runInstrs (i :: is) { s with input := [] } = andThen (mapNext (queued []) (exec i s)) (runInstrs is) :=
      congrArg (andThen · (runInstrs is)) (exec_queued i [] s)
    rw [hrun, List.length_cons, List.map_cons, core_run_succ, hstep]
    cases ht : exec i s with
    | next t =>
      obtain ⟨-, -, -, htsink⟩ := exec_marksKept ht
      exact ih t (fun j hj => hwf j (List.mem_cons_of_mem i hj)) (htsink.trans hsink)
    | fault _ => rfl
    | refused _ => rfl

/-- Settles O39: RX from `s` and from the state after SEND are RX from one state with an empty trace, each trace put
before it. -/
theorem sendingDoesNotDisturbReceiving : Obligations.SendingDoesNotDisturbReceiving := by
  intro p b s t h
  cases hsink : s.inSink with
  | true =>
    rw [exec_of_inSink hsink (.inl rfl)] at h
    cases h
    refine ⟨[], _, (List.append_nil _).symm, sending_eq_sent p s, ?_⟩
    rw [exec_of_inSink (s := sent p s) hsink (.inl rfl), List.append_nil]
    rfl
  | false =>
    let silent : State := { s with out := [], result := .noResult }
    have hrx : ∀ o, rxByte b { silent with out := o } = mapNext (behind o s.input) (rxByte b silent) := fun o => by
      rw [← rxByte_behind, behind, List.append_nil]
    rw [exec_rx_eq_rxByte hsink] at h
    obtain ⟨u, hu, rfl⟩ := mapNext_eq_next.1 ((hrx s.out).symm.trans h)
    refine ⟨u.out, _, rfl, sending_eq_sent p s, ?_⟩
    rw [exec_rx_eq_rxByte (s := sent p s) hsink]
    exact (hrx (sent p s).out).trans (by rw [hu]; rfl)

end Sys2Proof.Machine
end

section
/-! PROOFS. Whole frames (spec/40_framecodec.md section 4, spec/70_reset_and_hazards.md section 2). First the states a frame
goes through while it fits, each an equation; then what a state that has lost a frame does with the bytes that follow; then
the statements. -/

namespace Sys2Proof.Machine

/-! ### Bytes stored in a row -/

/-- The buffer with bytes written from index `i` on. -/
def writeAll (m : Memory) (i : Nat) : List Byte → Memory
  | [] => m
  | b :: bs => writeAll (memWrite m i b) (i + 1) bs

theorem writeAll_append (m : Memory) (i : Nat) (as bs : List Byte) :
    writeAll m i (as ++ bs) = writeAll (writeAll m i as) (i + as.length) bs := by
  induction as generalizing m i with
  | nil => rfl
  | cons a as ih =>
    rw [List.cons_append, writeAll, writeAll, ih, List.length_cons, Nat.add_assoc, Nat.add_comm 1]

/-- A written index holds its byte, every other what it held. -/
theorem memRead_writeAll (m : Memory) (i : Nat) (bs : List Byte) (a : Nat) :
    memRead (writeAll m i bs) a = if i ≤ a then bs[a - i]?.getD (memRead m a) else memRead m a := by
  induction bs generalizing m i with
  | nil => simp [writeAll]
  | cons b bs ih =>
    rw [writeAll, ih, memRead_memWrite]
    rcases lt_trichotomy a i with hlt | rfl | hgt
    · simp [hlt.ne, Nat.not_le.2 hlt, Nat.not_le.2 (Nat.lt_succ_of_lt hlt)]
    · simp
    · have hidx : a - i = (a - (i + 1)) + 1 := by omega
      simp [hgt.ne', Nat.succ_le_of_lt hgt, hgt.le, hidx]

/-! ### The bytes of a frame that fits -/

theorem rxAll_append_of_next {as : List Byte} {s t : State} (h : rxAll as s = .next t) (bs : List Byte) :
    rxAll (as ++ bs) s = rxAll bs t := by
  rw [rxAll_append, h, andThen_next]

theorem rxAll_cons_of_next {b : Byte} {s t : State} (h : rxByte b s = .next t) (bs : List Byte) :
    rxAll (b :: bs) s = rxAll bs t := by
  rw [rxAll_cons, h, andThen_next]

theorem rxAll_singleton (b : Byte) (s : State) : rxAll [b] s = rxByte b s := by
  rw [rxAll_cons, andThen_rxAll_nil]

theorem rxByte_of_fs {s : State} {f : FrameState} (hfs : s.fs = f) (b : Byte) :
    rxByte b s = rxIn f b (startRun s) := by
  rw [rxByte_eq_rxIn, hfs]

theorem exec_frame {s : State} (hsink : s.inSink = false) (body : List Byte) (cs : Byte) :
    exec (.frame body cs) s = rxAll ([DLE, STX] ++ body ++ [DLE, ETX, cs]) (returning .noResult s) := by
  have harm : exec (.frame body cs) s = receive ([DLE, STX] ++ body ++ [DLE, ETX, cs]) s := rfl
  rw [harm, receive, outsideSink_of_false hsink]

/-- `s` in a payload, the bytes `q` of the frame stored. -/
def inPayloadWith (s : State) (q : List Byte) : State :=
  { received s with
    fs := .inPayload, rdIdx := q.length, stIdx := .pos 2, enIdx := .searching, buf := writeAll s.buf 0 q }

/-- `s` at a possible end, a DLE stored behind the bytes `q` of the frame. -/
def endPendingWith (s : State) (q : List Byte) : State :=
  { inPayloadWith s (q ++ [DLE]) with fs := .endPending, enIdx := .tentative }

/-- `s` before the checksum byte, the end confirmed behind the bytes `q` of the frame. -/
def checksumWaitWith (s : State) (q : List Byte) : State :=
  { inPayloadWith s (q ++ [DLE, ETX]) with fs := .checksumWait, enIdx := .pos q.length }

/-- A byte stored at the read cursor joins the stored bytes. -/
theorem inPayloadWith_snoc (s : State) (q : List Byte) (b : Byte) :
    { inPayloadWith s q with rdIdx := q.length + 1, buf := memWrite (writeAll s.buf 0 q) q.length b } =
      inPayloadWith s (q ++ [b]) := by
  have hbuf : writeAll s.buf 0 (q ++ [b]) = memWrite (writeAll s.buf 0 q) q.length b := by
    rw [writeAll_append, Nat.zero_add]
    rfl
  rw [inPayloadWith, inPayloadWith, hbuf, List.length_append]
  rfl

/-- The start of a frame (R76, R79). -/
theorem rxAll_start {s : State} (hcap : 5 ≤ s.cfg.bufCap) (hfs : s.fs = .searchStart) (hrow : SearchStartRow s) :
    rxAll [DLE, STX] (returning .noResult s) = .next (inPayloadWith s [DLE, STX]) := by
  obtain ⟨hrd, -, hen⟩ := hrow
  have hdle : rxByte DLE (returning .noResult s) = .next
      { received s with fs := .startPending, rdIdx := 1, stIdx := .tentative, buf := memWrite s.buf 0 DLE } :=
    (rxByte_of_fs (s := returning .noResult s) hfs DLE).trans
      (rxSearchStart_dle_of_rdIdx (s := received s) hrd hcap)
  rw [rxAll_cons_of_next hdle, rxAll_singleton, inPayloadWith, ← hen]
  exact rxStartPending_stx_of_rdIdx rfl hcap

/-- Payload bytes that are no DLE, while there is room (R84). -/
theorem rxAll_payload {s : State} (p q : List Byte) (hp : DLE ∉ p) (hroom : q.length + p.length < s.cfg.bufCap) :
    rxAll p (inPayloadWith s q) = .next (inPayloadWith s (q ++ p)) := by
  induction p generalizing q with
  | nil => rw [List.append_nil, rxAll_nil]
  | cons b p ih =>
    rw [List.length_cons] at hroom
    obtain ⟨hb, hp⟩ := not_or.1 (mt List.mem_cons.2 hp)
    have hlt : (inPayloadWith s q).rdIdx < (inPayloadWith s q).cfg.bufCap := by
      show q.length < s.cfg.bufCap
      omega
    have hroom' : ¬(q.length + 1 = s.cfg.bufCap) := by omega
    have hbyte : rxByte b (inPayloadWith s q) = .next (inPayloadWith s (q ++ [b])) := by
      rw [← inPayloadWith_snoc, rxByte_of_fs rfl]
      exact (rxInPayload_of_ne (s := inPayloadWith s q) (Ne.symm hb) rfl hlt).trans
        (congrArg Host.Outcome.next (if_neg hroom'))
    rw [rxAll_cons_of_next hbyte, ih _ hp (by simp only [List.length_append, List.length_singleton]; omega),
      List.append_assoc, List.singleton_append]

/-- A DLE in the payload, if there is room behind it (R83). -/
theorem rxByte_dle_inPayloadWith {s : State} {q : List Byte} (hroom : q.length + 1 < s.cfg.bufCap) :
    rxByte DLE (inPayloadWith s q) = .next (endPendingWith s q) := by
  have hlt : (inPayloadWith s q).rdIdx < (inPayloadWith s q).cfg.bufCap := Nat.lt_of_succ_lt hroom
  rw [endPendingWith, ← inPayloadWith_snoc, rxByte_of_fs rfl]
  exact (rxInPayload_dle hlt).trans (congrArg Host.Outcome.next (if_neg hroom.ne))

/-- A stuffed DLE (R86). -/
theorem rxByte_dle_endPendingWith (s : State) (q : List Byte) :
    rxByte DLE (endPendingWith s q) = .next (endPendingWith s q) :=
  rxEndPending_dle (endPendingWith s q)

/-- The confirmed end (R85). -/
theorem rxByte_etx_endPendingWith {s : State} {q : List Byte} (hroom : q.length + 1 < s.cfg.bufCap) :
    rxByte ETX (endPendingWith s q) = .next (checksumWaitWith s q) := by
  have hlen : (q ++ [DLE]).length = q.length + 1 := by rw [List.length_append, List.length_singleton]
  have hlt : (endPendingWith s q).rdIdx < (endPendingWith s q).cfg.bufCap := by
    show (q ++ [DLE]).length < s.cfg.bufCap
    omega
  have hdle : q.length = (q ++ [DLE]).length - 1 := by omega
  have hstored : q ++ [DLE, ETX] = (q ++ [DLE]) ++ [ETX] := by rw [List.append_assoc, List.singleton_append]
  rw [checksumWaitWith, hstored, ← inPayloadWith_snoc, hdle]
  exact (rxEndPending_etx _).trans (confirmEnd_of_lt hlt)

/-- A frame up to its checksum byte, of a payload with no DLE that fits. -/
theorem rxAll_frame_to_checksum {s : State} (hcap : 5 ≤ s.cfg.bufCap) (hfs : s.fs = .searchStart)
    (hrow : SearchStartRow s) {p : List Byte} (hp : DLE ∉ p) (hfits : p.length + 4 ≤ s.cfg.bufCap) (cs : Byte) :
    rxAll ([DLE, STX] ++ p ++ [DLE, ETX, cs]) (returning .noResult s) =
      rxByte cs (checksumWaitWith s ([DLE, STX] ++ p)) := by
  have hroom : ([DLE, STX] ++ p).length + 1 < s.cfg.bufCap := by
    simp only [List.length_append, List.length_cons, List.length_nil]
    omega
  have hpayload := rxAll_payload (s := s) p [DLE, STX] hp (by simp only [List.length_cons, List.length_nil]; omega)
  rw [List.append_assoc, rxAll_append_of_next (rxAll_start hcap hfs hrow), rxAll_append_of_next hpayload,
    rxAll_cons_of_next (rxByte_dle_inPayloadWith hroom), rxAll_cons_of_next (rxByte_etx_endPendingWith hroom),
    rxAll_singleton]

/-- The frame span stands at the front of the buffer (R72). -/
theorem holdsFrame_writeAll (s : State) (p : List Byte) :
    HoldsFrame s p (writeAll s.buf 0 ([DLE, STX] ++ p ++ [DLE, ETX])) := by
  intro a
  rw [memRead_writeAll, if_pos (Nat.zero_le a), Nat.sub_zero]
  rfl

/-- The payload lies between the cursors before the checksum byte (R90). -/
theorem payloadIs_checksumWaitWith {s : State} {p : List Byte} (hfits : p.length + 4 ≤ s.cfg.bufCap) :
    PayloadIs (checksumWaitWith s ([DLE, STX] ++ p)) p := by
  refine ⟨2, p.length + 2, rfl, ?_, ?_, by omega, fun k hk => ?_⟩
  · simp [checksumWaitWith]
  · show p.length + 2 ≤ s.cfg.bufCap
    omega
  · have hread := holdsFrame_writeAll s p (2 + k)
    have hidx : ([0x10, 0x02] ++ p ++ [0x10, 0x03] : List Byte)[2 + k]? = p[k]? := by
      rw [Nat.add_comm 2 k, List.append_assoc]
      exact List.getElem?_append_left hk
    rw [hidx, List.getElem?_eq_getElem hk, Option.getD_some] at hread
    rw [List.getElem?_eq_getElem hk]
    exact congrArg some hread.symm

theorem searching_of_row {s : State} (hfs : s.fs = .searchStart) (hrow : SearchStartRow s) : searching s = s := by
  obtain ⟨hrd, hst, hen⟩ := hrow
  cases s
  cases hfs
  cases hrd
  cases hst
  cases hen
  rfl

/-- `s` with these framing fields and this buffer. -/
def framedBy (f : FrameState) (r : Nat) (a e : Cursor) (m : Memory) (s : State) : State :=
  { s with fs := f, rdIdx := r, stIdx := a, enIdx := e, buf := m }

theorem commutesWithCommands_framedBy (f : FrameState) (r : Nat) (a e : Cursor) (m : Memory) :
    CommutesWithCommands (framedBy f r a e m) :=
  ⟨fun _ => rfl, fun _ _ => rfl, fun _ _ _ => rfl, fun _ _ _ => rfl⟩

theorem commutesWithCommands_searching : CommutesWithCommands searching :=
  ⟨fun _ => rfl, fun _ _ => rfl, fun _ _ _ => rfl, fun _ _ _ => rfl⟩

/-- A dispatch leaves a searching machine searching. -/
theorem searching_dispatch {s : State} (h : searching s = s) (p : List Byte) :
    searching (dispatch p s) = dispatch p s := by
  rw [← commutesWithCommands_searching.dispatch, h]

/-- A delivery dispatches as if the frame had not been received, and then resets it (R91). -/
theorem deliver_checksumWaitWith (p q : List Byte) (s : State) :
    deliver p (checksumWaitWith s q) =
      { searching (dispatch p { received s with out := s.out ++ [.tx 0x06] }) with
        buf := writeAll s.buf 0 (q ++ [DLE, ETX]) } := by
  have hframing := commutesWithCommands_framedBy .checksumWait (q ++ [DLE, ETX]).length (.pos 2) (.pos q.length)
    (writeAll s.buf 0 (q ++ [DLE, ETX]))
  exact congrArg resetFrame (hframing.dispatch p { received s with out := s.out ++ [.tx 0x06] })

/-! ### A lost frame -/

/-- `t` shows the outside what `s` shows, under the same parameters. -/
def SameShown (s t : State) : Prop :=
  t.cfg = s.cfg ∧ t.out = s.out ∧ t.buttons = s.buttons ∧ t.wheels = s.wheels

/-- `t` is in the framing state `f`, meets its row of R21, and shows what `s` shows. -/
def QuietIn (f : FrameState) (s t : State) : Prop := t.fs = f ∧ FramingInv t ∧ SameShown s t

/-- No byte but the checksum byte shows anything: RX of it moves the framing state machine alone. -/
theorem rxByte_quiet {f : FrameState} {s t : State} (hcap : 5 ≤ s.cfg.bufCap) (h : QuietIn f s t)
    (hf : f ≠ .checksumWait) (b : Byte) : ∃ u, rxByte b t = .next u ∧ QuietIn u.fs s u := by
  obtain ⟨hfs, hframing, hcfg, hout, hbuttons, hwheels⟩ := h
  obtain ⟨u, hu, hkept⟩ := rxByte_completes (hcfg ▸ hcap) hframing b
  refine ⟨u, hu, rfl, hkept.framing, ?_⟩
  obtain ⟨_, _, _, _, _, _, rfl, -⟩ | ⟨hwait, -⟩ := rxByte_cases hu
  · exact ⟨hcfg, hout, hbuttons, hwheels⟩
  · exact absurd (hfs.symm.trans hwait) hf

theorem rxSearchStart_fs {b : Byte} (hb : b ≠ DLE) {s t : State} (h : rxSearchStart b s = .next t) : t.fs = s.fs := by
  rw [rxSearchStart, if_neg hb] at h
  split_ifs at h <;> cases h <;> rfl

/-- While searching, bytes that are no DLE lead nowhere (R77, R78). -/
theorem rxAll_quiet_of_search {s t : State} (hcap : 5 ≤ s.cfg.bufCap) (h : QuietIn .searchStart s t) {bs : List Byte}
    (hbs : DLE ∉ bs) : ∃ u, rxAll bs t = .next u ∧ QuietIn .searchStart s u := by
  induction bs generalizing t with
  | nil => exact ⟨t, rfl, h⟩
  | cons b bs ih =>
    obtain ⟨hb, hbs⟩ := not_or.1 (mt List.mem_cons.2 hbs)
    obtain ⟨u, hu, -, hquiet⟩ := rxByte_quiet hcap h (by decide) b
    have hfs : u.fs = .searchStart := by
      rw [rxByte_of_fs h.1] at hu
      exact (rxSearchStart_fs (Ne.symm hb) hu).trans h.1
    rw [rxAll_cons_of_next hu]
    exact ih ⟨hfs, hquiet⟩ hbs

/-- While searching, a DLE opens a frame, and any byte but STX closes it again (R76, R80). -/
theorem rxAll_quiet_of_false_start {s t : State} (hcap : 5 ≤ s.cfg.bufCap) (h : QuietIn .searchStart s t) {b : Byte}
    (hb : b ≠ STX) : ∃ u, rxAll [DLE, b] t = .next u ∧ QuietIn .searchStart s u := by
  obtain ⟨u, hu, -, hquiet⟩ := rxByte_quiet hcap h (by decide) DLE
  have hfs : u.fs = .startPending := by
    obtain ⟨htfs, hframing, hcfg, -⟩ := h
    have hrow : SearchStartRow t := hframing.1 htfs
    have hrx := rxSearchStart_dle (s := startRun t) hrow (hcfg ▸ hcap)
    rw [rxByte_of_fs htfs] at hu
    cases hrx.symm.trans hu
    rfl
  obtain ⟨v, hv, -, hquiet'⟩ := rxByte_quiet hcap ⟨hfs, hquiet⟩ (by decide) b
  refine ⟨v, by rw [rxAll_cons_of_next hu, rxAll_singleton, hv], ?_, hquiet'⟩
  rw [rxByte_of_fs hfs] at hv
  cases (rxStartPending_of_ne hb _).symm.trans hv
  rfl

/-- The end of a frame whose start was lost: `10 03` is a false start, and the checksum byte is no checksum. -/
theorem rxAll_quiet_of_lost_end {s t : State} (hcap : 5 ≤ s.cfg.bufCap) (h : QuietIn .searchStart s t) (cs : Byte) :
    ∃ u, rxAll [DLE, ETX, cs] t = .next u ∧ SameShown s u := by
  obtain ⟨u, hu, hquiet⟩ := rxAll_quiet_of_false_start hcap h (b := ETX) (by decide)
  obtain ⟨v, hv, -, -, hshown⟩ := rxByte_quiet hcap hquiet (by decide) cs
  exact ⟨v, by rw [show [DLE, ETX, cs] = [DLE, ETX] ++ [cs] from rfl, rxAll_append_of_next hu, rxAll_singleton, hv],
    hshown⟩

/-- What is left of a frame when its end's DLE was lost. -/
theorem rxAll_quiet_of_lost_dle {s t : State} (hcap : 5 ≤ s.cfg.bufCap) (h : QuietIn .searchStart s t) (cs : Byte) :
    ∃ u, rxAll [ETX, cs] t = .next u ∧ SameShown s u := by
  obtain ⟨u, hu, hquiet⟩ := rxAll_quiet_of_search hcap h (bs := [ETX]) (by decide)
  obtain ⟨v, hv, -, -, hshown⟩ := rxByte_quiet hcap hquiet (by decide) cs
  exact ⟨v, by rw [show [ETX, cs] = [ETX] ++ [cs] from rfl, rxAll_append_of_next hu, rxAll_singleton, hv], hshown⟩

theorem quietIn_returning {f : FrameState} {s : State} (hfs : s.fs = f) (hframing : FramingInv s) (r : OpResult) :
    QuietIn f s (returning r s) :=
  ⟨hfs, hframing, rfl, rfl, rfl, rfl⟩

/-- A byte that fills the buffer in a payload loses the frame (R89). -/
theorem rxByte_quiet_of_full {s : State} {q : List Byte} (hfull : q.length + 1 = s.cfg.bufCap) (b : Byte) :
    ∃ t, rxByte b (inPayloadWith s q) = .next t ∧ QuietIn .searchStart s t := by
  have hlt : (inPayloadWith s q).rdIdx < (inPayloadWith s q).cfg.bufCap := Nat.lt_of_succ_le hfull.le
  have hlost : rxByte b (inPayloadWith s q) = .next
      { searching (inPayloadWith s q) with buf := memWrite (writeAll s.buf 0 q) q.length b } := by
    rw [rxByte_of_fs rfl]
    by_cases hb : b = DLE
    · subst hb
      exact (rxInPayload_dle hlt).trans (congrArg Host.Outcome.next (if_pos hfull))
    · exact (rxInPayload_of_ne (s := inPayloadWith s q) hb rfl hlt).trans
        (congrArg Host.Outcome.next (if_pos hfull))
  exact ⟨_, hlost, rfl, framingInv_of_row (f := .searchStart) rfl ⟨rfl, rfl, rfl⟩, rfl, rfl, rfl, rfl⟩

/-- A payload that does not fit loses its frame on the way, and what is left of it leads nowhere. -/
theorem rxAll_quiet_of_overflow {s : State} (hcap : 5 ≤ s.cfg.bufCap) {p q : List Byte} (hp : DLE ∉ p)
    (hq : q.length < s.cfg.bufCap) (hfull : s.cfg.bufCap ≤ q.length + p.length) :
    ∃ t, rxAll p (inPayloadWith s q) = .next t ∧ QuietIn .searchStart s t := by
  obtain ⟨n, hn⟩ : ∃ n, q.length + n + 1 = s.cfg.bufCap := ⟨s.cfg.bufCap - q.length - 1, by omega⟩
  obtain ⟨fits, b, rest, rfl, hlen⟩ : ∃ fits b rest, p = fits ++ b :: rest ∧ fits.length = n :=
    ⟨p.take n, p[n], p.drop (n + 1), by simp, by simp; omega⟩
  simp only [List.mem_append, List.mem_cons, not_or] at hp
  obtain ⟨hfits, -, hrest⟩ := hp
  have hroom : (q ++ fits).length + 1 = s.cfg.bufCap := by rw [List.length_append, hlen, hn]
  obtain ⟨t, ht, hquiet⟩ := rxByte_quiet_of_full hroom b
  obtain ⟨u, hu, hquiet'⟩ := rxAll_quiet_of_search hcap hquiet hrest
  refine ⟨u, ?_, hquiet'⟩
  rw [rxAll_append_of_next (rxAll_payload fits q hfits (by omega)), rxAll_cons_of_next ht, hu]

/-! ### The statements -/

/-- Settles O32: the frame is stored up to its checksum, which matches; the delivery writes none of the framing fields, so
that the reset after it can be read as coming before it. -/
theorem cleanFrameIsAcknowledgedAndDispatched : Obligations.CleanFrameIsAcknowledgedAndDispatched := by
  rintro s p ⟨⟨hcap, -⟩, hframing, -⟩ hsink hfs hp hfits
  have hrow : SearchStartRow s := hframing.1 hfs
  have hsearching : searching (received s) = received s := searching_of_row hfs hrow
  refine ⟨_, holdsFrame_writeAll s p, ?_⟩
  rw [exec_frame hsink, rxAll_frame_to_checksum hcap hfs hrow hp hfits, rxByte_of_fs rfl]
  refine (rxChecksumWait_of_match (payloadIs_checksumWaitWith hfits)).trans (congrArg Host.Outcome.next ?_)
  exact (deliver_checksumWaitWith p _ s).trans (by
    rw [searching_dispatch (s := { received s with out := s.out ++ [.tx 0x06] })
      (congrArg (emit (.tx ACK)) hsearching) p])

/-- Settles O33: the same frame with a checksum byte that does not match. -/
theorem corruptedFrameHasNoEffect : Obligations.CorruptedFrameHasNoEffect := by
  rintro s p cs ⟨⟨hcap, -⟩, hframing, -⟩ hsink hfs hp hfits hcs
  have hrow : SearchStartRow s := hframing.1 hfs
  refine ⟨_, holdsFrame_writeAll s p, ?_⟩
  rw [exec_frame hsink, rxAll_frame_to_checksum hcap hfs hrow hp hfits, rxByte_of_fs rfl]
  refine (rxChecksumWait_of_mismatch (payloadIs_checksumWaitWith hfits) hcs).trans (congrArg Host.Outcome.next ?_)
  have hsearching : searching (received s) = received s := searching_of_row hfs hrow
  rw [← hsearching]
  rfl

/-- Settles O34: the buffer is full before the end is confirmed, in the payload or at the end's DLE. -/
theorem overlongFrameIsNeverDelivered : Obligations.OverlongFrameIsNeverDelivered := by
  rintro s p cs ⟨⟨hcap, -⟩, hframing, -⟩ hsink hfs hp hlong
  rw [exec_frame hsink, List.append_assoc, rxAll_append_of_next (rxAll_start hcap hfs (hframing.1 hfs))]
  by_cases hfull : s.cfg.bufCap ≤ p.length + 2
  · obtain ⟨t, ht, hquiet⟩ := rxAll_quiet_of_overflow hcap (q := [DLE, STX]) hp
      (by simp only [List.length_cons, List.length_nil]; omega)
      (by simp only [List.length_cons, List.length_nil]; omega)
    obtain ⟨u, hu, -, hshown⟩ := rxAll_quiet_of_lost_end hcap hquiet cs
    exact ⟨u, by rw [rxAll_append_of_next ht, hu], hshown⟩
  · have hroom : [DLE, STX].length + p.length < s.cfg.bufCap := by
      simp only [List.length_cons, List.length_nil]
      omega
    have hlast : ([DLE, STX] ++ p).length + 1 = s.cfg.bufCap := by
      simp only [List.length_append, List.length_cons, List.length_nil]
      omega
    obtain ⟨t, ht, hquiet⟩ := rxByte_quiet_of_full hlast DLE
    obtain ⟨u, hu, -, hshown⟩ := rxAll_quiet_of_lost_dle hcap hquiet cs
    exact ⟨u, by rw [rxAll_append_of_next (rxAll_payload p _ hp hroom), rxAll_cons_of_next ht, hu], hshown⟩

/-- Settles O35: the stray DLE and the start's DLE are a false start, after which the payload is not in a frame. -/
theorem strayDleLosesTheNextFrame : Obligations.StrayDleLosesTheNextFrame := by
  rintro s p cs ⟨⟨hcap, -⟩, hframing, -⟩ hsink hfs hp
  have hbytes : runInstrs [.rx 0x10, .frame p cs] s =
      rxAll ([DLE, DLE] ++ (STX :: p) ++ [DLE, ETX, cs]) (returning .noResult s) := by
    rw [← runInstrs_rx_of_ne_nil (bs := [DLE, DLE] ++ (STX :: p) ++ [DLE, ETX, cs]) (List.cons_ne_nil _ _) hsink]
    refine congrArg (andThen (exec (.rx 0x10) s)) (funext fun t => ?_)
    rw [runInstrs_singleton]
    exact exec_eq_runInstrs_rx rfl rfl (by exact List.cons_ne_nil _ _) t
  have hquiet := quietIn_returning hfs hframing .noResult
  obtain ⟨t, ht, hquiet⟩ := rxAll_quiet_of_false_start hcap hquiet (b := DLE) (by decide)
  have hpayload : DLE ∉ STX :: p := List.not_mem_cons_of_ne_of_not_mem (by decide) hp
  obtain ⟨u, hu, hquiet⟩ := rxAll_quiet_of_search hcap hquiet hpayload
  obtain ⟨v, hv, -, hshown⟩ := rxAll_quiet_of_lost_end hcap hquiet cs
  refine ⟨v, ?_, hshown⟩
  rw [hbytes, List.append_assoc, rxAll_append_of_next ht, rxAll_append_of_next hu, hv]

/-- Settles O36: with room, the unescaped DLEs of the payload are read as the end's, so that the payload is `68 01` and the
checksum another; in the smallest buffer the first of them fills it. -/
theorem ownGroupLightFrameIsNotRecovered : Obligations.OwnGroupLightFrameIsNotRecovered := by
  rintro s ⟨⟨hcap, -⟩, hframing, -⟩ hsink hfs
  have hrow : SearchStartRow s := hframing.1 hfs
  let p : List Byte := [0x68, 0x01]
  let cs : Byte := checksum [0x68, 0x01, 0x10, 0x10]
  have hpayload := rxAll_payload (s := s) p [DLE, STX] (by decide) hcap
  have hbytes : exec (.frame [0x68, 0x01, 0x10, 0x10] cs) s =
      rxAll [DLE, DLE, DLE, ETX, cs] (inPayloadWith s ([DLE, STX] ++ p)) := by
    rw [exec_frame hsink, ← rxAll_append_of_next hpayload, ← rxAll_append_of_next (rxAll_start hcap hfs hrow)]
    rfl
  rw [hbytes]
  by_cases hsmall : s.cfg.bufCap = 5
  · obtain ⟨t, ht, hquiet⟩ := rxByte_quiet_of_full (s := s) (q := [DLE, STX] ++ p) hsmall.symm DLE
    obtain ⟨u, hu, hquiet⟩ := rxAll_quiet_of_false_start hcap hquiet (b := DLE) (by decide)
    obtain ⟨v, hv, -, hshown⟩ := rxAll_quiet_of_lost_dle hcap hquiet cs
    refine ⟨v, ?_, hshown⟩
    rw [rxAll_cons_of_next ht, ← hv, ← rxAll_append_of_next hu]
    rfl
  · have hroom : ([DLE, STX] ++ p).length + 1 < s.cfg.bufCap := by
      show 5 < s.cfg.bufCap
      omega
    have hfits : p.length + 4 ≤ s.cfg.bufCap := hroom
    have hdiscard := rxChecksumWait_of_mismatch (payloadIs_checksumWaitWith hfits) (b := cs) (by decide)
    refine ⟨searching (checksumWaitWith s ([DLE, STX] ++ p)), ?_, rfl, rfl, rfl⟩
    rw [rxAll_cons_of_next (rxByte_dle_inPayloadWith hroom), rxAll_cons_of_next (rxByte_dle_endPendingWith s _),
      rxAll_cons_of_next (rxByte_dle_endPendingWith s _), rxAll_cons_of_next (rxByte_etx_endPendingWith hroom),
      rxAll_singleton, rxByte_of_fs rfl]
    exact hdiscard

end Sys2Proof.Machine
end

section
/-! PROOFS. The frame buffer (spec/20_memory.md section 1): bytes at or above the read cursor are never observed. Two states
that agree below it take the same step, operation by operation, and agree below it again; so do two runs. -/

namespace Sys2Proof.Machine

/-! ### Operations that keep two states alike -/

/-- Both stop alike, or both answer next states that differ at most in unstored bytes. -/
inductive AlikeSteps : Step → Step → Prop where
  | next {s t : State} (h : SameButUnstoredBytes s t) : AlikeSteps (.next s) (.next t)
  | fault (e : Fault) : AlikeSteps (.fault e) (.fault e)
  | refused (e : Refusal) : AlikeSteps (.refused e) (.refused e)

theorem AlikeSteps.andThen {r r' : Step} (h : AlikeSteps r r') {f : State → Step}
    (hf : ∀ s t, SameButUnstoredBytes s t → AlikeSteps (f s) (f t)) : AlikeSteps (andThen r f) (andThen r' f) := by
  cases h with
  | next hst => exact hf _ _ hst
  | fault e => exact .fault e
  | refused e => exact .refused e

theorem AlikeSteps.exists_next {s : State} {r : Step} (h : AlikeSteps (.next s) r) :
    ∃ t, r = .next t ∧ SameButUnstoredBytes s t := by
  cases h with
  | next hst => exact ⟨_, rfl, hst⟩

/-- Agreement in a buffer `m` below the read cursor. -/
theorem sameButUnstoredBytes_iff {s t : State} :
    SameButUnstoredBytes s t ↔
      ∃ m, t = { s with buf := m } ∧ ∀ a, a < s.rdIdx → memRead m a = memRead s.buf a := by
  constructor
  · rintro ⟨ht, hbytes⟩
    exact ⟨t.buf, ht, hbytes⟩
  · rintro ⟨m, rfl, hbytes⟩
    exact ⟨rfl, hbytes⟩

/-- An update that leaves the buffer, and the read cursor where it is or lower. -/
theorem sameButUnstoredBytes_update {s t : State} (h : SameButUnstoredBytes s t) {f : State → State}
    (hf : ∀ m, f { s with buf := m } = { f s with buf := m }) (hbuf : (f s).buf = s.buf) (hrd : (f s).rdIdx ≤ s.rdIdx) :
    SameButUnstoredBytes (f s) (f t) := by
  obtain ⟨m, rfl, hbytes⟩ := sameButUnstoredBytes_iff.1 h
  refine sameButUnstoredBytes_iff.2 ⟨m, hf m, fun a ha => ?_⟩
  rw [hbuf]
  exact hbytes a (lt_of_lt_of_le ha hrd)

theorem store_alike {s t : State} (h : SameButUnstoredBytes s t) (b : Byte) : AlikeSteps (store b s) (store b t) := by
  obtain ⟨m, rfl, hbytes⟩ := sameButUnstoredBytes_iff.1 h
  by_cases hlt : s.rdIdx < s.cfg.bufCap
  · rw [store_of_lt hlt, store_of_lt (s := { s with buf := m }) hlt]
    refine .next (sameButUnstoredBytes_iff.2 ⟨memWrite m s.rdIdx b, rfl, fun a ha => ?_⟩)
    rw [memRead_memWrite, memRead_memWrite]
    split_ifs with hidx
    · rfl
    · exact hbytes a (lt_of_le_of_ne (Nat.le_of_lt_succ ha) hidx)
  · have hstop : ∀ u : State, ¬u.rdIdx < u.cfg.bufCap → store b u = .fault (.storeOutOfBounds u.rdIdx) := fun u hu => by
      rw [store, bufWrite, if_neg hu, andThen_fault]
    rw [hstop s hlt, hstop { s with buf := m } hlt]
    exact .fault _

theorem resetFrame_alike {s t : State} (h : SameButUnstoredBytes s t) :
    SameButUnstoredBytes (resetFrame s) (resetFrame t) :=
  sameButUnstoredBytes_update h (fun _ => rfl) rfl (Nat.zero_le _)

theorem overflowCheck_alike {s t : State} (h : SameButUnstoredBytes s t) :
    SameButUnstoredBytes (overflowCheck s) (overflowCheck t) := by
  have hfull : overflowed t = overflowed s := by rw [h.1]; rfl
  rw [overflowCheck, overflowCheck, hfull]
  split_ifs
  · exact resetFrame_alike h
  · exact h

/-- A stored byte, an update of the framing fields but the read cursor, and the overflow check. -/
theorem store_check_alike {s t : State} (h : SameButUnstoredBytes s t) (b : Byte) {f : State → State}
    (hf : ∀ u m, f { u with buf := m } = { f u with buf := m }) (hbuf : ∀ u, (f u).buf = u.buf)
    (hrd : ∀ u, (f u).rdIdx = u.rdIdx) :
    AlikeSteps (andThen (store b s) fun u => .next (overflowCheck (f u)))
      (andThen (store b t) fun u => .next (overflowCheck (f u))) :=
  (store_alike h b).andThen fun u _ huv =>
    .next (overflowCheck_alike (sameButUnstoredBytes_update huv (hf u) (hbuf u) (hrd u).le))

/-! ### RX keeps two good states alike -/

theorem rxSearchStart_alike {s t : State} (h : SameButUnstoredBytes s t) (b : Byte) :
    AlikeSteps (rxSearchStart b s) (rxSearchStart b t) := by
  unfold rxSearchStart
  split_ifs
  · exact store_check_alike h DLE (fun _ _ => by rfl) (fun _ => by rfl) fun _ => by rfl
  · exact .next (sameButUnstoredBytes_update (f := fun u => { u with rdIdx := 0 }) h (fun _ => rfl) rfl (Nat.zero_le _))
  · exact .next h

theorem rxStartPending_alike {s t : State} (h : SameButUnstoredBytes s t) (b : Byte) :
    AlikeSteps (rxStartPending b s) (rxStartPending b t) := by
  unfold rxStartPending
  split_ifs
  · exact store_check_alike h STX (fun _ _ => by rfl) (fun _ => by rfl) fun _ => by rfl
  · exact .next (resetFrame_alike h)

theorem rxInPayload_alike {s t : State} (h : SameButUnstoredBytes s t) (b : Byte) :
    AlikeSteps (rxInPayload b s) (rxInPayload b t) := by
  unfold rxInPayload
  split_ifs
  · exact store_check_alike h DLE (fun _ _ => by rfl) (fun _ => by rfl) fun _ => by rfl
  · exact store_check_alike h b (fun _ _ => by rfl) (fun _ => by rfl) fun _ => by rfl

theorem confirmEnd_alike {s t : State} (h : SameButUnstoredBytes s t) : AlikeSteps (confirmEnd s) (confirmEnd t) := by
  have hend : SameButUnstoredBytes { s with enIdx := .pos (s.rdIdx - 1) } { t with enIdx := .pos (t.rdIdx - 1) } :=
    sameButUnstoredBytes_update (f := fun u => { u with enIdx := .pos (u.rdIdx - 1) }) h (fun _ => rfl) rfl le_rfl
  exact (store_alike hend ETX).andThen fun u _ huv =>
    .next (sameButUnstoredBytes_update (f := fun u => { u with fs := .checksumWait }) huv (fun _ => rfl) rfl le_rfl)

/-- The restart stores both bytes below its read cursor anew. -/
theorem restartFrame_alike {s t : State} (hcap : 5 ≤ s.cfg.bufCap) (h : SameButUnstoredBytes s t) :
    AlikeSteps (restartFrame s) (restartFrame t) := by
  obtain ⟨m, rfl, -⟩ := sameButUnstoredBytes_iff.1 h
  have hcap' : 2 ≤ s.cfg.bufCap := le_trans (by norm_num) hcap
  rw [restartFrame_of_le hcap', restartFrame_of_le (s := { s with buf := m }) hcap']
  refine .next (sameButUnstoredBytes_iff.2 ⟨_, rfl, fun a ha => ?_⟩)
  have ha' : a = 0 ∨ a = 1 := by
    have hlt : a < 2 := ha
    omega
  rw [memRead_restart, memRead_restart]
  obtain rfl | rfl := ha' <;> rfl

theorem rxEndPending_alike {s t : State} (hcap : 5 ≤ s.cfg.bufCap) (h : SameButUnstoredBytes s t) (b : Byte) :
    AlikeSteps (rxEndPending b s) (rxEndPending b t) := by
  have hcfg : t.cfg = s.cfg := by rw [h.1]
  rw [rxEndPending, rxEndPending, hcfg]
  split_ifs
  · exact confirmEnd_alike h
  · exact .next h
  · exact restartFrame_alike hcap h
  · exact store_check_alike h b (fun _ _ => by rfl) (fun _ => by rfl) fun _ => by rfl

/-- The payload lies below the read cursor (R21), where the two agree. -/
theorem readPayload_alike {s t : State} (hrow : ChecksumWaitRow s) (h : SameButUnstoredBytes s t) :
    readPayload t = readPayload s := by
  obtain ⟨m, rfl, hbytes⟩ := sameButUnstoredBytes_iff.1 h
  obtain ⟨hrd, hcap, hst, hen, -⟩ := hrow
  have hread : memReadRange m 2 (s.rdIdx - 2 - 2) = memReadRange s.buf 2 (s.rdIdx - 2 - 2) :=
    memReadRange_congr fun k hk => hbytes _ (by omega)
  simp only [readPayload, hst, hen, bufReadRange, hread]

theorem commutesWithCommands_buf (m : Memory) : CommutesWithCommands fun s => { s with buf := m } :=
  ⟨fun _ => rfl, fun _ _ => rfl, fun _ _ _ => rfl, fun _ _ _ => rfl⟩

theorem deliver_alike {s t : State} (h : SameButUnstoredBytes s t) (p : List Byte) :
    SameButUnstoredBytes (deliver p s) (deliver p t) := by
  refine sameButUnstoredBytes_update h (fun m => ?_) (by simp [deliver]) (Nat.zero_le _)
  exact congrArg resetFrame ((commutesWithCommands_buf m).dispatch p (emit (.tx ACK) s))

theorem rxChecksumWait_alike {s t : State} (hrow : ChecksumWaitRow s) (h : SameButUnstoredBytes s t) (b : Byte) :
    AlikeSteps (rxChecksumWait b s) (rxChecksumWait b t) := by
  rw [rxChecksumWait, rxChecksumWait, readPayload_alike hrow h]
  cases readPayload s with
  | error f => exact .fault f
  | ok p =>
    dsimp only
    split_ifs
    · exact .next (deliver_alike h p)
    · exact .next (resetFrame_alike h)

theorem rxByte_alike {s t : State} (hcap : 5 ≤ s.cfg.bufCap) (hframing : FramingInv s) (h : SameButUnstoredBytes s t)
    (b : Byte) : AlikeSteps (rxByte b s) (rxByte b t) := by
  have hrow : FramingRow s.fs (startRun s) := (framingInv_iff_framingRow (startRun s)).1 hframing
  have hstart : SameButUnstoredBytes (startRun s) (startRun t) :=
    sameButUnstoredBytes_update h (fun _ => rfl) rfl le_rfl
  have hfs : t.fs = s.fs := by rw [h.1]
  rw [rxByte_eq_rxIn, rxByte_eq_rxIn, hfs]
  cases hs : s.fs <;> rw [hs] at hrow
  case searchStart => exact rxSearchStart_alike hstart b
  case startPending => exact rxStartPending_alike hstart b
  case inPayload => exact rxInPayload_alike hstart b
  case endPending => exact rxEndPending_alike (s := startRun s) hcap hstart b
  case checksumWait => exact rxChecksumWait_alike hrow hstart b

theorem rxAll_alike (bs : List Byte) {s t : State} (hcap : 5 ≤ s.cfg.bufCap) (hframing : FramingInv s)
    (h : SameButUnstoredBytes s t) : AlikeSteps (rxAll bs s) (rxAll bs t) := by
  induction bs generalizing s t with
  | nil => exact .next h
  | cons b bs ih =>
    obtain ⟨u, hu, hkept⟩ := rxByte_completes hcap hframing b
    obtain ⟨v, hv, huv⟩ := (hu ▸ rxByte_alike hcap hframing h b).exists_next
    rw [rxAll_cons, rxAll_cons, hu, hv]
    exact ih (hkept.cfg ▸ hcap) hkept.framing huv

/-! ### Instructions and runs -/

theorem effect_rdIdx_le {i : Instr} {s t : State} (h : Effect i s t) (hi : receives i = false) : t.rdIdx ≤ s.rdIdx := by
  cases h with
  | refuses | answers | notifies | sends | levels | turns | ticks | addsButton | addsWheel => exact le_rfl
  | resets => exact Nat.zero_le _
  | receives hrx _ => exact absurd (hrx.symm.trans hi) (by decide)
  | updates _ => cases hi

theorem exec_alike_of_not_receives {i : Instr} (hi : receives i = false) {s t : State} (h : SameButUnstoredBytes s t) :
    AlikeSteps (exec i s) (exec i t) := by
  obtain ⟨m, rfl, hbytes⟩ := sameButUnstoredBytes_iff.1 h
  obtain ⟨u, hu, heffect⟩ := exec_effect_of_not_receives hi s
  have hlent : exec i { s with buf := m } = .next { u with buf := m } := by
    obtain ⟨-, -, hinput, -⟩ := exec_marksKept hu
    refine (exec_lent_of_not_receives hi m s.input s).trans ?_
    rw [hu, ← hinput]
    rfl
  rw [hlent, hu]
  refine .next (sameButUnstoredBytes_iff.2 ⟨m, rfl, fun a ha => ?_⟩)
  rw [effect_buf_of_not_receives heffect hi]
  exact hbytes a (lt_of_lt_of_le ha (effect_rdIdx_le heffect hi))

theorem exec_alike (i : Instr) {s t : State} (hcap : 5 ≤ s.cfg.bufCap) (hframing : FramingInv s)
    (h : SameButUnstoredBytes s t) : AlikeSteps (exec i s) (exec i t) := by
  cases hi : receives i with
  | false => exact exec_alike_of_not_receives hi h
  | true =>
    have hsame : t.inSink = s.inSink := by rw [h.1]
    rw [exec_of_receives hi, exec_of_receives hi]
    cases hsink : s.inSink with
    | true =>
      rw [outsideSink_of_true hsink, outsideSink_of_true (hsame.trans hsink)]
      exact .next (sameButUnstoredBytes_update h (fun _ => rfl) rfl le_rfl)
    | false =>
      rw [outsideSink_of_false hsink, outsideSink_of_false (hsame.trans hsink)]
      have hcleared : SameButUnstoredBytes (returning .noResult s) (returning .noResult t) :=
        sameButUnstoredBytes_update h (fun _ => rfl) rfl le_rfl
      refine (rxAll_alike (s := returning .noResult s) (wireBytes i) hcap hframing hcleared).andThen fun u v huv => ?_
      cases i with
      | update bs => exact .next (sameButUnstoredBytes_update huv (fun _ => rfl) rfl le_rfl)
      | _ => exact .next huv

/-! ### The statement -/

/-- Settles O60: by induction on the instructions, the first state staying a good one. -/
theorem unstoredBufferBytesAreNeverObserved : Obligations.UnstoredBufferBytesAreNeverObserved := by
  intro is
  induction is with
  | nil => exact fun s t _ h => ⟨s, t, rfl, rfl, h⟩
  | cons i is ih =>
    intro s t hs h
    obtain ⟨⟨hcap, -⟩, hframing, -⟩ := id hs
    obtain ⟨u, hu⟩ := exec_completes i hcap hframing
    obtain ⟨v, hv, huv⟩ := (hu ▸ exec_alike i hcap hframing h).exists_next
    rw [runInstrs, runInstrs, hu, hv]
    exact ih u v (exec_keeps_inv hs hu) huv

end Sys2Proof.Machine
end
